-- ==== Sys2Proof/Word.lean ====
section
/-! DEFINITION. The word types of WNQS (10_state.md section 2, 30_encoding.md R91): bytes, 10-bit axis
values, 16-bit report fields, the six-byte frame, the three-lane record of R165, and one entry of the bus
history (R44), and the IIR history (R38). -/

namespace Sys2Proof

/-- A byte on the bus or in the frame buffer (R21). -/
abbrev Byte := BitVec 8

/-- An axis value, `AXIS_W = 10` bits, unsigned (R7, R22). -/
abbrev Axis := BitVec 10

/-- A published or report field, `FIELD_W = 16` bits, unsigned (R7, R24). -/
abbrev Field := BitVec 16

/-- A RawFrame: six bytes, `b0` the first the bus read returned (R10, R21, R60). -/
structure Frame where
  b0 : Byte
  b1 : Byte
  b2 : Byte
  b3 : Byte
  b4 : Byte
  b5 : Byte
deriving DecidableEq, Repr, Inhabited

/-- The three axes, lanes that every operation treats alike (R165). -/
structure Lanes (α : Type) where
  x : α
  y : α
  z : α
deriving DecidableEq, Repr, Inhabited

/-- One entry of the bus history (R44): a write transaction with its bytes in the order sent, or a read
transaction with the six bytes the sensor answered. -/
inductive BusEvent where
  | w (bytes : List Byte)
  | r (frame : Frame)
deriving DecidableEq, Repr, Inhabited

/-- The IIR history (R38): `xk` is the input `x[n-k]`, `yk` the output `y[n-k]`. An argument and a result of
`IIR_STEP`, owned by the caller. -/
structure IirHistory where
  x1 : Int
  x2 : Int
  x3 : Int
  x4 : Int
  y1 : Int
  y2 : Int
  y3 : Int
  y4 : Int
deriving DecidableEq, Repr, Inhabited

end Sys2Proof
end

