-- ==== Sys2Proof/Config.lean ====
section
/-! DEFINITION. What an implementation fixes (00_scope.md R7, R8) and what the environment chooses
(R42, R66): types of the build-time configuration, and constants with no body for every open value. -/

namespace Sys2Proof

/-- The filter policy (R7, R8, R170). `ma k` is the moving average with `LOG2M = k + 1`, so that every
value of this type is a legal configuration; `pt` is passthrough. What is not a legal configuration is
refused when the configuration is built (`Machine.policyOfDepth`). -/
inductive Policy where
  | ma (k : Nat)
  | pt
deriving DecidableEq, Repr, Inhabited

/-- The IIR coefficient table (R191): `Q`, the five feed-forward and the four stored feedback
coefficients, signed integers scaled by `2^Q`; `a[0]` is `2^Q` and is not stored. -/
structure IirTable where
  q  : Nat
  b0 : Int
  b1 : Int
  b2 : Int
  b3 : Int
  b4 : Int
  a1 : Int
  a2 : Int
  a3 : Int
  a4 : Int
deriving DecidableEq, Repr, Inhabited

/-- The configuration chosen once at build (R8): `POLICY` with `LOG2M`, `IIR_TABLE` and `IIR_W`. -/
structure Build where
  policy : Policy
  iir    : IirTable
  iirW   : Nat
deriving DecidableEq, Repr, Inhabited

/-- The configuration of this hardware: every parameter R7 marks OPEN that a rule of state change uses.
No body: a claim holds for every configuration (assumption 3). -/
opaque Config.build : Build

/-- The oracle (R66): the six bytes the sensor answers to a bus read, a function of the bus history so far
and of a free choice. Used where the environment, and not a scheduled line, supplies the answer. -/
opaque Config.oracle : List BusEvent → Nat → Frame

/-- The environment's choice of the next enabled event (R42, R218). -/
opaque Config.freeChoice : Nat → Nat

/-- The history the caller of the IIR transform passes in a call the environment makes (R38, R199). -/
opaque Config.freeHistory : Nat → IirHistory

/-- The raw sample the caller of the IIR transform passes in a call the environment makes (R197). -/
opaque Config.freeSample : Nat → Axis

/-- What `IIR_W` bits hold of a value that does not fit them, given the width and the value: the spec states no
result (assumption 11). `Machine.heldEntry` keeps it within the width. -/
opaque Config.iirOpenEntry : Nat → Int → Int

/-- `IND_WAVE` (R7, R34): the indicator's two waveforms, a function of the mode (`false` the steady slow
toggle, `true` the repeating double pulse) and of a time base the spec does not describe. -/
opaque Config.indWave : Bool → Nat → Bool

/-- `BUS_ADDR` (R7): the sensor's address on the bus; no rule of state change uses it. -/
opaque Config.busAddr : Nat

/-- `TICK_PERIOD` (R7), in microseconds; no rule uses its value. -/
opaque Config.tickPeriod : Nat

/-- `T_SETTLE` (R7, R290) beyond its lower bound of 500 microseconds; no rule uses its value. -/
opaque Config.settleBeyondBound : Nat

/-- `T_GAP` (R7, R291), in microseconds; no rule uses its value. -/
opaque Config.gapTime : Nat

end Sys2Proof
end

