-- ==== Sys2Proof/Syntax.lean ====
section
/-! DEFINITION. The operations of WNQS (30_encoding.md R92): one constructor per row of
spec/opcode_table.json, with the operands the rule of that row names. -/

namespace Sys2Proof

/-- The closed operation set of R92. An operation that reads the bus carries the six bytes the sensor
answers (R66, R103); a frame class carries the fields of its word that the class leaves open (R94, R96);
`iirStep` carries the history the caller passes and the input sample (R38, R193). -/
inductive Instr where
  /- Bus commands (R93). -/
  | bwInit
  | bwIdq
  | brFrame (d : Frame)
  | bwUnenc1
  | bwUnenc2
  | bwReq
  /- Sample-frame classes (R94, R95). -/
  | fSpike (u0 u1 xh yh : Byte)
  | fValid (u0 u1 xh yh zh : Byte) (u7 : BitVec 1) (zl yl xl : BitVec 2) (ub : BitVec 1)
  /- Identification-frame classes (R96). -/
  | idGenuine (i0 i1 : Byte)
  | idOther (i0 i1 i2 i3 i4 i5 : Byte)
  /- Events (R92, R99). -/
  | reset
  | iInit
  | iIdq
  | iIdr (d : Frame)
  | iClass
  | iUnenc1
  | iUnenc2
  | iReq
  | iStart
  | tick
  | cycle (d : Frame)
  | hold
  | rdx
  | rdy
  | rdz
  | release
  | iirStep (h : IirHistory) (x : Axis)
  | failsig
  /- Micro-operations of the cycle (R92, R146). -/
  | cRead (d : Frame)
  | cReq
  | cValid
  | cUnpack
  | cCarry
  | cStore
  | cAvg
  | cPass
  | cPub
deriving DecidableEq, Repr, Inhabited

end Sys2Proof
end

