-- ==== Sys2Proof/WellFormed.lean ====
section
/-! DEFINITION. Which operations are well formed: the two class rows of priority 2 hold every word their
format's row of priority 1 does not (30_encoding.md R95, R96, R104). -/

namespace Sys2Proof

/-- The open fields of an `F_VALID` word do not spell the sentinel `FB[4] = FB[5] = 0xFE` (R95): the second
class holds only words that are not `F_SPIKE`. -/
def validFieldsOk (zh : Byte) (u7 : BitVec 1) (zl yl xl : BitVec 2) (ub : BitVec 1) : Bool :=
  !(zh == 0xFE && u7 == 1 && zl == 3 && yl == 3 && xl == 3 && ub == 0)

/-- The bytes of an `ID_OTHER` word do not spell the genuine pattern (R96). -/
def otherFieldsOk (i2 i3 i4 i5 : Byte) : Bool :=
  !(i2 == 0x9A && i3 == 0x1E && i4 == 0xFE && i5 == 0xFE)

/-- A well-formed operation. -/
def Instr.wf : Instr → Bool
  | .bwInit => true
  | .bwIdq => true
  | .brFrame _ => true
  | .bwUnenc1 => true
  | .bwUnenc2 => true
  | .bwReq => true
  | .fSpike _ _ _ _ => true
  | .fValid _ _ _ _ zh u7 zl yl xl ub => validFieldsOk zh u7 zl yl xl ub
  | .idGenuine _ _ => true
  | .idOther _ _ i2 i3 i4 i5 => otherFieldsOk i2 i3 i4 i5
  | .reset => true
  | .iInit => true
  | .iIdq => true
  | .iIdr _ => true
  | .iClass => true
  | .iUnenc1 => true
  | .iUnenc2 => true
  | .iReq => true
  | .iStart => true
  | .tick => true
  | .cycle _ => true
  | .hold => true
  | .rdx => true
  | .rdy => true
  | .rdz => true
  | .release => true
  | .iirStep _ _ => true
  | .failsig => true
  | .cRead _ => true
  | .cReq => true
  | .cValid => true
  | .cUnpack => true
  | .cCarry => true
  | .cStore => true
  | .cAvg => true
  | .cPass => true
  | .cPub => true

end Sys2Proof
end

