-- ==== Sys2Proof/Decode.lean ====
section
/-! DEFINITION. The fields of the formats (30_encoding.md R90 to R97), the decoder of a scheduled line, and
the encoder.

A line is what the environment schedules: one line of the trace notation of R103, written as bytes. Its
first byte names the format, numbered in the order of R90's table; then stands the word of that format,
its first byte first (R62 (b), R91); then, for an event or micro-operation that has operands, their bytes:
the six bytes the sensor answers, or the history the caller passes and the input sample. The spec gives a
line no bytes; this layout is the model's (assumption 1, DESIGN CHOICE). -/

namespace Sys2Proof

/-- Why bytes are no line. -/
inductive DecodeError where
  /-- The line stops before its format's word and operands are complete. -/
  | truncated
  /-- The format byte names no format of R90. -/
  | unknownFormat
  /-- `REPORT56` is handed out by the block, and is no operation (R90, R98). -/
  | reportIsNoOperation
  /-- A one-byte bus write the block never issues (R93, R100 (d)). -/
  | unknownBusWrite1
  /-- A two-byte bus write the block never issues (R93, R100 (d)). -/
  | unknownBusWrite2
  /-- An `EVT` label that names nothing (R99, R100 (e), U13). -/
  | unknownEvent
  /-- A `UOP` label that names nothing (R99, R100 (e), U13). -/
  | unknownMicroOp
  /-- An input sample of more than 10 bits (R197). -/
  | sampleTooWide
  /-- A history entry is not written in its shortest form (assumption 1). -/
  | entryNotShortest
deriving DecidableEq, Repr

/-! ### Fields of a frame -/

/-- The 48-bit word of a frame, `FB[0]` most significant (R91). -/
def w48OfFrame (f : Frame) : BitVec 48 :=
  f.b0 ++ f.b1 ++ f.b2 ++ f.b3 ++ f.b4 ++ f.b5

/-- The frame of a 48-bit word (R91). -/
def frameOfW48 (w : BitVec 48) : Frame where
  b0 := w.extractLsb' 40 8
  b1 := w.extractLsb' 32 8
  b2 := w.extractLsb' 24 8
  b3 := w.extractLsb' 16 8
  b4 := w.extractLsb' 8 8
  b5 := w.extractLsb' 0 8

/-- Byte 5 of a sample frame from its fields, `u7` in bit 7 and `ub` in bit 0 (R94). -/
def byte5Of (u7 : BitVec 1) (zl yl xl : BitVec 2) (ub : BitVec 1) : Byte :=
  u7 ++ zl ++ yl ++ xl ++ ub

/-- `FB[5][7]` (R94). -/
def u7Of (b : Byte) : BitVec 1 := b.extractLsb' 7 1

/-- `FB[5][6:5]`, the two low bits of z (R94). -/
def zlOf (b : Byte) : BitVec 2 := b.extractLsb' 5 2

/-- `FB[5][4:3]`, the two low bits of y (R94). -/
def ylOf (b : Byte) : BitVec 2 := b.extractLsb' 3 2

/-- `FB[5][2:1]`, the two low bits of x (R94). -/
def xlOf (b : Byte) : BitVec 2 := b.extractLsb' 1 2

/-- `FB[5][0]` (R94). -/
def ubOf (b : Byte) : BitVec 1 := b.extractLsb' 0 1

/-- The spike sentinel: `FB[4] = 0xFE` and `FB[5] = 0xFE`, all eight bits of both (R95). -/
def isSpike (f : Frame) : Bool := f.b4 == 0xFE && f.b5 == 0xFE

/-- The genuine identification pattern on bytes 2 to 5 (R96); bytes 0 and 1 are not compared. -/
def isGenuine (f : Frame) : Bool :=
  f.b2 == 0x9A && f.b3 == 0x1E && f.b4 == 0xFE && f.b5 == 0xFE

/-! ### Bytes of numbers -/

/-- The lowest `n` bytes of a number, most significant first (R62 (b)). -/
def bytesOfNat : Nat → Nat → List Byte
  | 0, _ => []
  | n + 1, w => BitVec.ofNat 8 (w >>> (8 * n)) :: bytesOfNat n w

/-- The six bytes of a frame in the order the bus read returned them (R10). -/
def bytesOfFrame (f : Frame) : List Byte := [f.b0, f.b1, f.b2, f.b3, f.b4, f.b5]

/-- The two bytes of an input sample, most significant first, in a line (assumption 1). -/
def bytesOfSample (x : Axis) : List Byte := [(x.extractLsb' 8 2).setWidth 8, x.extractLsb' 0 8]

/-- The number that stands for a signed entry in a line: 2v for v from 0 on, -2v - 1 below (assumption 1). -/
def natOfEntry : Int → Nat
  | .ofNat n => 2 * n
  | .negSucc n => 2 * n + 1

/-- The signed entry a number stands for. -/
def entryOfNat (n : Nat) : Int := if n % 2 = 0 then .ofNat (n / 2) else .negSucc (n / 2)

/-- A number in groups of seven bits, lowest first, bit 7 set on every byte but the last; `fuel` is at least
the number of further groups. -/
def groupsOfNat : Nat → Nat → List Byte
  | 0, n => [BitVec.ofNat 8 (n % 128)]
  | fuel + 1, n =>
    if n < 128 then [BitVec.ofNat 8 n] else BitVec.ofNat 8 (128 + n % 128) :: groupsOfNat fuel (n / 128)

/-- The bytes of a history entry in a line. -/
def bytesOfEntry (v : Int) : List Byte := groupsOfNat ((natOfEntry v).log2 + 1) (natOfEntry v)

/-- The bytes of a history in a line, inputs before outputs, the newest first (assumption 1). -/
def bytesOfHistory (h : IirHistory) : List Byte :=
  bytesOfEntry h.x1 ++ (bytesOfEntry h.x2 ++ (bytesOfEntry h.x3 ++ (bytesOfEntry h.x4 ++
    (bytesOfEntry h.y1 ++ (bytesOfEntry h.y2 ++ (bytesOfEntry h.y3 ++ bytesOfEntry h.y4))))))

/-! ### Decoding -/

/-- Takes six bytes of a line as a frame operand. -/
def takeFrame (k : Frame → Instr) : List Byte → Except DecodeError (Instr × List Byte)
  | b0 :: b1 :: b2 :: b3 :: b4 :: b5 :: rest => .ok (k ⟨b0, b1, b2, b3, b4, b5⟩, rest)
  | _ => .error .truncated

/-- Takes a number in groups of seven bits; a last group of 0 after another group is not the shortest form. -/
def takeNat : List Byte → Except DecodeError (Nat × List Byte)
  | [] => .error .truncated
  | b :: rest =>
    if b.toNat < 128 then .ok (b.toNat, rest)
    else
      match takeNat rest with
      | .ok (0, _) => .error .entryNotShortest
      | .ok (n + 1, rest') => .ok (b.toNat - 128 + 128 * (n + 1), rest')
      | .error e => .error e

/-- Takes a history entry and goes on with it and the bytes after it. -/
def withEntry {α : Type} (k : Int → List Byte → Except DecodeError α) (bs : List Byte) : Except DecodeError α :=
  match takeNat bs with
  | .ok (n, rest) => k (entryOfNat n) rest
  | .error e => .error e

/-- Takes a history and goes on with it and the bytes after it. -/
def withHistory {α : Type} (k : IirHistory → List Byte → Except DecodeError α) (bs : List Byte) :
    Except DecodeError α :=
  withEntry (fun x1 => withEntry fun x2 => withEntry fun x3 => withEntry fun x4 =>
    withEntry fun y1 => withEntry fun y2 => withEntry fun y3 => withEntry fun y4 =>
      k ⟨x1, x2, x3, x4, y1, y2, y3, y4⟩) bs

/-- Takes a sample of 10 bits, the last operand of `IIR_STEP`. -/
def takeSample (k : Axis → Instr) : List Byte → Except DecodeError (Instr × List Byte)
  | hi :: lo :: rest =>
    if hi.extractLsb' 2 6 == 0 then .ok (k (hi.extractLsb' 0 2 ++ lo), rest)
    else .error .sampleTooWide
  | _ => .error .truncated

/-- Takes the operands of `IIR_STEP`: a history and a sample (R193). -/
def takeIir (bs : List Byte) : Except DecodeError (Instr × List Byte) :=
  withHistory (fun h => takeSample (.iirStep h)) bs

/-- The classes of a sample frame in their order of priority (R95, R104). -/
def classifySample (f : Frame) : Instr :=
  if isSpike f then .fSpike f.b0 f.b1 f.b2 f.b3
  else .fValid f.b0 f.b1 f.b2 f.b3 f.b4 (u7Of f.b5) (zlOf f.b5) (ylOf f.b5) (xlOf f.b5) (ubOf f.b5)

/-- The classes of an identification frame in their order of priority (R96, R104). -/
def classifyId (f : Frame) : Instr :=
  if isGenuine f then .idGenuine f.b0 f.b1
  else .idOther f.b0 f.b1 f.b2 f.b3 f.b4 f.b5

/-- A one-byte bus write (R93). -/
def decodeBusW1 : List Byte → Except DecodeError (Instr × List Byte)
  | b :: rest =>
    if b == 0xFA then .ok (.bwIdq, rest)
    else if b == 0x00 then .ok (.bwReq, rest)
    else .error .unknownBusWrite1
  | [] => .error .truncated

/-- A two-byte bus write (R93). -/
def decodeBusW2 : List Byte → Except DecodeError (Instr × List Byte)
  | a :: b :: rest =>
    if a == 0x40 && b == 0x00 then .ok (.bwInit, rest)
    else if a == 0xF0 && b == 0x55 then .ok (.bwUnenc1, rest)
    else if a == 0xFB && b == 0x00 then .ok (.bwUnenc2, rest)
    else .error .unknownBusWrite2
  | _ => .error .truncated

/-- An event by its label (R99); a label from 18 on names nothing (R100 (e)). -/
def decodeEvt : List Byte → Except DecodeError (Instr × List Byte)
  | [] => .error .truncated
  | b :: rest =>
    match b.toNat with
    | 0 => .ok (.reset, rest)
    | 1 => .ok (.iInit, rest)
    | 2 => .ok (.iIdq, rest)
    | 3 => takeFrame .iIdr rest
    | 4 => .ok (.iClass, rest)
    | 5 => .ok (.iUnenc1, rest)
    | 6 => .ok (.iUnenc2, rest)
    | 7 => .ok (.iReq, rest)
    | 8 => .ok (.iStart, rest)
    | 9 => .ok (.tick, rest)
    | 10 => takeFrame .cycle rest
    | 11 => .ok (.hold, rest)
    | 12 => .ok (.rdx, rest)
    | 13 => .ok (.rdy, rest)
    | 14 => .ok (.rdz, rest)
    | 15 => .ok (.release, rest)
    | 16 => takeIir rest
    | 17 => .ok (.failsig, rest)
    | _ => .error .unknownEvent

/-- A micro-operation by its label (R99); a label from 9 on names nothing (R100 (e)). -/
def decodeUop : List Byte → Except DecodeError (Instr × List Byte)
  | [] => .error .truncated
  | b :: rest =>
    match b.toNat with
    | 0 => takeFrame .cRead rest
    | 1 => .ok (.cReq, rest)
    | 2 => .ok (.cValid, rest)
    | 3 => .ok (.cUnpack, rest)
    | 4 => .ok (.cCarry, rest)
    | 5 => .ok (.cStore, rest)
    | 6 => .ok (.cAvg, rest)
    | 7 => .ok (.cPass, rest)
    | 8 => .ok (.cPub, rest)
    | _ => .error .unknownMicroOp

/-- The first line of a list of bytes and the bytes after it. Total: bytes that are no line are refused by
name. The format codes 0 to 7 are R90's formats in the order of its table. -/
def decode : List Byte → Except DecodeError (Instr × List Byte)
  | [] => .error .truncated
  | fmt :: rest =>
    match fmt.toNat with
    | 0 => decodeBusW1 rest
    | 1 => decodeBusW2 rest
    | 2 => takeFrame .brFrame rest
    | 3 => takeFrame classifySample rest
    | 4 => takeFrame classifyId rest
    | 5 => .error .reportIsNoOperation
    | 6 => decodeEvt rest
    | 7 => decodeUop rest
    | _ => .error .unknownFormat

/-! ### Words of the opcode table -/

/-- The format in which a word of the opcode table is read when only its width and its bits are known
(assumption 14). A 16-bit word is a `BUSW2`. An 8-bit word is an event label where one has that value, else
a `BUSW1`. A 48-bit word is an identification frame where it has the genuine pattern, else a sample frame.
A width of 5 or 4 bits is that of an `EVT` or `UOP` label. -/
def tableFormat (nbits w : Nat) : Option Byte :=
  if nbits = 16 then some 1
  else if nbits = 8 then (if w < 18 then some 6 else some 0)
  else if nbits = 48 then (if w % 2 ^ 32 = 0x9A1EFEFE then some 4 else some 3)
  else if nbits = 5 then some 6
  else if nbits = 4 then some 7
  else none

/-- The line that holds a word of the opcode table, its operand bytes all zero: at least as many zeros as
the longest operand. -/
def tableBytes (nbits w : Nat) : Option (List Byte) :=
  (tableFormat nbits w).map fun fmt =>
    fmt :: bytesOfNat ((nbits + 7) / 8) w ++ List.replicate 10 (0 : Byte)

/-- The operation the decoder reads from a word of the opcode table. -/
def decodeTableWord (nbits w : Nat) : Option Instr :=
  match tableBytes nbits w with
  | none => none
  | some bs =>
    match decode bs with
    | .ok (i, _) => some i
    | .error _ => none

/-! ### Encoding -/

/-- The line of an operation. -/
def encode : Instr → List Byte
  | .bwInit => [1, 0x40, 0x00]
  | .bwIdq => [0, 0xFA]
  | .brFrame d => 2 :: bytesOfFrame d
  | .bwUnenc1 => [1, 0xF0, 0x55]
  | .bwUnenc2 => [1, 0xFB, 0x00]
  | .bwReq => [0, 0x00]
  | .fSpike u0 u1 xh yh => [3, u0, u1, xh, yh, 0xFE, 0xFE]
  | .fValid u0 u1 xh yh zh u7 zl yl xl ub => [3, u0, u1, xh, yh, zh, byte5Of u7 zl yl xl ub]
  | .idGenuine i0 i1 => [4, i0, i1, 0x9A, 0x1E, 0xFE, 0xFE]
  | .idOther i0 i1 i2 i3 i4 i5 => [4, i0, i1, i2, i3, i4, i5]
  | .reset => [6, 0]
  | .iInit => [6, 1]
  | .iIdq => [6, 2]
  | .iIdr d => 6 :: 3 :: bytesOfFrame d
  | .iClass => [6, 4]
  | .iUnenc1 => [6, 5]
  | .iUnenc2 => [6, 6]
  | .iReq => [6, 7]
  | .iStart => [6, 8]
  | .tick => [6, 9]
  | .cycle d => 6 :: 10 :: bytesOfFrame d
  | .hold => [6, 11]
  | .rdx => [6, 12]
  | .rdy => [6, 13]
  | .rdz => [6, 14]
  | .release => [6, 15]
  | .iirStep h x => 6 :: 16 :: (bytesOfHistory h ++ bytesOfSample x)
  | .failsig => [6, 17]
  | .cRead d => 7 :: 0 :: bytesOfFrame d
  | .cReq => [7, 1]
  | .cValid => [7, 2]
  | .cUnpack => [7, 3]
  | .cCarry => [7, 4]
  | .cStore => [7, 5]
  | .cAvg => [7, 6]
  | .cPass => [7, 7]
  | .cPub => [7, 8]

end Sys2Proof
end

