-- ==== Sys2Proof/Machine/State.lean ====
section
/-! DEFINITION. The state of WNQS (10_state.md): the producer's, the consumer's and the timer's registers,
the bus history, and, marked as the model's own, what stands outside the block (configuration, schedule, the
result of the last IIR step, the request line) and the position inside a cycle. -/

namespace Sys2Proof.Machine

open Sys2Proof

/-- `PH`, the producer sequencer (R28). -/
inductive Phase where
  | boot | i1 | i2 | i3 | i4 | i5 | i6 | i7 | run | fail
deriving DecidableEq, Repr

/-- `RSEQ`, the consumer sequencer (R29). -/
inductive ReadSeq where
  | idle | h0 | h1 | h2 | h3
deriving DecidableEq, Repr

/-- `IND_MODE`, the indicator mode (R34). -/
inductive IndMode where
  | off | normal | fail
deriving DecidableEq, Repr

/-- The position inside a cycle that is run one micro-operation at a time (R103, R146): `idle` outside a
cycle, else the micro-operation that comes next. The spec's cycle is one atomic event with no visible
position (R28, R140); the field is the model's own (assumption 6). `idle` is its value outside a cycle run
by micro-operations, before and after every other event but `TICK` and `IIR_STEP`. -/
inductive CyclePos where
  | idle | req | valid | fill | store | filter | pub
deriving DecidableEq, Repr

/-- Data by index, in one canonical form: indices strictly rising, no entry equal to what an unlisted index
reads as (`sparseWf` in Ops). -/
abbrev Sparse (α : Type) := List (Nat × α)

/-- The state. -/
structure State where
  /-- `FB[0..5]` (R21). -/
  fb : Frame
  /-- `SX`, `SY`, `SZ`, the working sample (R22). -/
  samp : Lanes Axis
  /-- `REJ` (R22). -/
  rej : Bool
  /-- `BUF_X`, `BUF_Y`, `BUF_Z` (R36): slot index to value; an unlisted slot reads 0. -/
  buf : Lanes (Sparse Axis)
  /-- `CUR`, 0 to M - 1 (R37). -/
  cur : Nat
  /-- `LAT_X`, `LAT_Y`, `LAT_Z` (R23). -/
  lat : Lanes Axis
  /-- `FX`, `FY`, `FZ` (R174, R176), held between the filter and the publish. -/
  filt : Lanes Axis
  /-- `PUB_X`, `PUB_Y`, `PUB_Z` (R24). -/
  pub : Lanes Field
  /-- `GENUINE` (R30). -/
  genuine : Bool
  /-- `ACQ_EN` (R33). -/
  acqEn : Bool
  /-- `IND_MODE` (R34). -/
  indMode : IndMode
  /-- `PH` (R28). -/
  ph : Phase
  /-- The position inside a cycle; the model's own (assumption 6). -/
  cyc : CyclePos
  /-- `REP_X`, `REP_Y`, `REP_Z` (R26). -/
  rep : Lanes Field
  /-- `RSEQ` (R29). -/
  rseq : ReadSeq
  /-- `MASK` (R32). -/
  mask : Bool
  /-- `TICK_PEND` (R31). -/
  tickPend : Bool
  /-- `BUSLOG`, oldest first (R44). -/
  busLog : List BusEvent
  /-- A `latest()` has completed since reset, so that `REP_*` hold a value (R26). -/
  repWritten : Bool
  /-- The port `rd_done` (R226): the `latest()` begun last has completed, and nothing has been asked since
  (assumption 13). -/
  rdDone : Bool
  /-- The port `rd_req` (R226 to R228): the consumer's user has asked and no `HOLD` has answered yet
  (assumption 13). -/
  rdReq : Bool
  /-- The configuration (R8, R42); no operation changes it (assumption 3). -/
  cfg : Build
  /-- The schedule (R42): the bytes of the lines the environment has still to run (assumption 1). -/
  sched : List Byte
  /-- How many choices the environment has made of its own; the model's own (assumption 12). -/
  freeCtr : Nat
  /-- The history H' on the port `iir_out` (R226), the result of the last `IIR_STEP`; no register of the block
  (R38), and no later step reads it (assumption 10). -/
  iirHist : IirHistory
  /-- The output y on the port `iir_out` (R226), the result of the last `IIR_STEP` (assumption 10). -/
  iirOut : Int
deriving DecidableEq, Repr

/-- Why a machine stops with a fault: this one never does, so there is no constructor. The block's three error
conditions are taken as the spec describes them (R240 to R243), and no read of a register stops (log 4). -/
inductive Fault where
deriving DecidableEq, Repr

/-- The condition an event that is not enabled misses. -/
inductive Guard where
  /-- `PH` is not the value the event needs (R28). -/
  | phase
  /-- `RSEQ` is not the value the consumer event needs (R29). -/
  | consumerSeq
  /-- The timer is not started (R33, R245). -/
  | timerStopped
  /-- A cycle may not begin: `PH = PH_RUN`, `TICK_PEND = 1`, `MASK = 0` and no cycle in progress do not all
  hold (R140). -/
  | cycleEntry
  /-- The micro-operation is not the one the cycle has come to (R146). -/
  | cyclePosition
  /-- The frame of the class is not the frame in `FB`, or the classifier is not at work (R123, R143). -/
  | frameClass
deriving DecidableEq, Repr

/-- Why an operation has no next state. -/
inductive Refusal where
  /-- The operation has no meaning in this model. Raised by no arm. Safe. -/
  | notModelled (mnemonic : String)
  /-- The event is not enabled in this state, so it does not occur (R120 to R128, R140, R212 to R216, R245,
  T11, U4, U8). Raised by every guarded operation. Safe: nothing is claimed of a state that has no such
  transition (assumption 2). -/
  | notEnabled (why : Guard)
  /-- The scheduled bytes are no line (R100 (d), (e), U13). Raised by the fetch. Safe. -/
  | undecodable (e : DecodeError)
  /-- An IIR output does not fit `IIR_W` bits: the step R197, U5 and D21 have a model refuse. Raised by
  `IIR_STEP`. Safe: neither wrap nor saturation is asserted. -/
  | iirWidth
  /-- A moving-average depth that is not a power of two, or is 1 (R8, R170, U6). Raised when a
  configuration is built. Safe. -/
  | badDepth
deriving DecidableEq, Repr

/-- The three lanes with one value. -/
def lanesOf {α : Type} (v : α) : Lanes α := ⟨v, v, v⟩

/-- The history of a fresh sequence (R195). -/
def zeroHistory : IirHistory := ⟨0, 0, 0, 0, 0, 0, 0, 0⟩

/-- The machine right after reset (R43, R280, R283). Where R43 says `unspecified` (`FB`, `S`, `REJ`, `REP`)
the value is 0 (assumption 4); the fields of the environment hold nothing (assumptions 3, 10, 12, 13). -/
def State.reset : State where
  fb := ⟨0, 0, 0, 0, 0, 0⟩
  samp := lanesOf 0
  rej := false
  buf := lanesOf []
  cur := 0
  lat := lanesOf 0
  filt := lanesOf 0
  pub := lanesOf 0
  genuine := false
  acqEn := false
  indMode := .off
  ph := .boot
  cyc := .idle
  rep := lanesOf 0
  rseq := .idle
  mask := false
  tickPend := false
  busLog := []
  repWritten := false
  rdDone := false
  rdReq := false
  cfg := Config.build
  sched := []
  freeCtr := 0
  iirHist := zeroHistory
  iirOut := 0

end Sys2Proof.Machine
end

