-- ==== Sys2Proof/Machine/Operands.lean ====
section
/-! DEFINITION. Operand forms: the 10-bit axis value assembled from a frame (42_unpacker.md), the depth and
the slot indices of the circular buffers (20_memory.md R61, 43_filters.md R170), and the report image
(20_memory.md R72). -/

namespace Sys2Proof.Machine

open Sys2Proof

/-- The axis values of a frame (R160): the designated byte on top of its two bits of `FB[5]`. -/
def unpackFrame (f : Frame) : Lanes Axis where
  x := f.b2 ++ xlOf f.b5
  y := f.b3 ++ ylOf f.b5
  z := f.b4 ++ zlOf f.b5

/-- The frame that unpacks to given axis values, its open bits as given (R163). -/
def packFrame (v : Lanes Axis) (b0 b1 : Byte) (u7 ub : BitVec 1) : Frame where
  b0 := b0
  b1 := b1
  b2 := v.x.extractLsb' 2 8
  b3 := v.y.extractLsb' 2 8
  b4 := v.z.extractLsb' 2 8
  b5 := byte5Of u7 (v.z.extractLsb' 0 2) (v.y.extractLsb' 0 2) (v.x.extractLsb' 0 2) ub

/-- `LOG2M` of a policy, 0 under passthrough, which has no depth (R7, R170). -/
def log2m : Policy → Nat
  | .ma k => k + 1
  | .pt => 0

/-- `M = 2^LOG2M` (R7, R170). -/
def depth (p : Policy) : Nat := 2 ^ log2m p

/-- `HALF = M / 2` (R170). -/
def half (p : Policy) : Nat := depth p / 2

/-- The configuration of a moving average of depth `m`, or its refusal: `m` must be a power of two and at
least 2 (R8, R100 (f), R170, U6). -/
def policyOfDepth (m : Nat) : Except Refusal Policy :=
  if m = 2 ^ m.log2 ∧ 2 ≤ m then .ok (.ma (m.log2 - 1)) else .error .badDepth

/-- The index after a slot: `(i + 1) mod M` (R172). -/
def nextSlot (p : Policy) (i : Nat) : Nat := (i + 1) % depth p

/-- The index before a slot: `(i - 1) mod M`, so that `(0 - 1) mod M = M - 1` (R61, R145). -/
def prevSlot (p : Policy) (i : Nat) : Nat := (i + (depth p - 1)) % depth p

/-- `zext_16` of a filter result (R97, R210). -/
def publishedField (v : Axis) : Field := v.setWidth 16

/-- `BTN_NONE`: the value of the hardwired `PUB_BTN` and `REP_BTN` (R25, R26, R229, D14). -/
def btnNone : Byte := 0x00

/-- The byte image of the report: three little-endian fields and the button byte (R72, R98, D15). -/
def reportImage (r : Lanes Field) : List Byte :=
  [r.x.extractLsb' 0 8, r.x.extractLsb' 8 8, r.y.extractLsb' 0 8, r.y.extractLsb' 8 8,
   r.z.extractLsb' 0 8, r.z.extractLsb' 8 8, btnNone]

end Sys2Proof.Machine
end

