-- ==== Sys2Proof/Machine/Flags.lean ====
section
/-! DEFINITION. The conditions under which an event is enabled, one Bool each (R28, R29, R140, R212, R245),
and the fit of a value in `IIR_W` bits (R197). `GENUINE` and `REJ` are computed by `isGenuine` and `isSpike`
of Decode. -/

namespace Sys2Proof.Machine

open Sys2Proof

/-- A cycle may begin: `PH = PH_RUN`, `TICK_PEND = 1`, `MASK = 0` (R140, R246), and none is in progress
(R251). -/
def cycleReady (s : State) : Bool :=
  s.ph == .run && s.tickPend && !s.mask && s.cyc == .idle

/-- A hold may begin: `RSEQ = C_IDLE` and `PH = PH_RUN`, and never inside a cycle (R212). -/
def holdReady (s : State) : Bool :=
  s.rseq == .idle && s.ph == .run && s.cyc == .idle

/-- A value fits a two's complement number of `w` bits (R197): `-2^(w-1) ≤ v < 2^(w-1)`, doubled on both
sides so that it also says what it should of `w = 0`. -/
def fitsBits (w : Nat) (v : Int) : Bool := decide (-(2 ^ w : Int) ≤ 2 * v ∧ 2 * v < 2 ^ w)

end Sys2Proof.Machine
end

