-- ==== Sys2Proof/Machine/Ops.lean ====
section
/-! DEFINITION. The shared operations: reads and writes of indexed data, the bus primitives (R14, R15), the
guarded event, entry to and return from the cycle (60_exceptions.md R248, R250), the error conditions
(R240 to R243), the request line (R226 to R228), and the transformers of the bring-up steps and of the micro-operations, on which the
meanings of events, micro-operations, bus commands and frame classes are built. -/

namespace Sys2Proof.Machine

open Sys2Proof

/-! ### Indexed data -/

/-- The value at an index; `d` where none is listed. -/
def sparseRead {α : Type} (d : α) : Sparse α → Nat → α
  | [], _ => d
  | (k, v) :: r, i => if k = i then v else sparseRead d r i

/-- Lists a value at its place by index, in place of the one listed there. -/
def sparseInsert {α : Type} : Sparse α → Nat → α → Sparse α
  | [], i, v => [(i, v)]
  | (k, w) :: r, i, v =>
    if i < k then (i, v) :: (k, w) :: r
    else if k = i then (i, v) :: r
    else (k, w) :: sparseInsert r i v

/-- Lists nothing at an index. -/
def sparseErase {α : Type} : Sparse α → Nat → Sparse α
  | [], _ => []
  | (k, w) :: r, i => if k = i then sparseErase r i else (k, w) :: sparseErase r i

/-- Writes a value at an index; the value an unlisted index reads as is not listed. -/
def sparseWrite {α : Type} [DecidableEq α] (d : α) (m : Sparse α) (i : Nat) (v : α) : Sparse α :=
  if v = d then sparseErase m i else sparseInsert m i v

/-- The canonical form: indices strictly rising, all at least `lo`, no value equal to `d`. -/
def sparseWfFrom {α : Type} [DecidableEq α] (d : α) : Nat → Sparse α → Bool
  | _, [] => true
  | lo, (k, v) :: r => decide (lo ≤ k) && decide (v ≠ d) && sparseWfFrom d (k + 1) r

/-- The canonical form of indexed data. -/
def sparseWf {α : Type} [DecidableEq α] (d : α) (m : Sparse α) : Bool := sparseWfFrom d 0 m

/-- Every listed index is below a bound. -/
def sparseBelow {α : Type} (n : Nat) : Sparse α → Bool
  | [] => true
  | (k, _) :: r => decide (k < n) && sparseBelow n r

/-- The canonical form of the three circular buffers of depth `m` (R36, R61): what the address space of this
block, the slot indices 0 to M - 1, holds. -/
def Memory.wf (m : Nat) (b : Lanes (Sparse Axis)) : Bool :=
  sparseWf 0 b.x && sparseWf 0 b.y && sparseWf 0 b.z
    && sparseBelow m b.x && sparseBelow m b.y && sparseBelow m b.z

/-- Reads slot `i` of the three buffers (R64). -/
def readSlot (b : Lanes (Sparse Axis)) (i : Nat) : Lanes Axis :=
  ⟨sparseRead 0 b.x i, sparseRead 0 b.y i, sparseRead 0 b.z i⟩

/-- Writes slot `i` of the three buffers (R64, R171). -/
def writeSlot (b : Lanes (Sparse Axis)) (i : Nat) (v : Lanes Axis) : Lanes (Sparse Axis) :=
  ⟨sparseWrite 0 b.x i v.x, sparseWrite 0 b.y i v.y, sparseWrite 0 b.z i v.z⟩

/-- The sum of the first `m` slots of one buffer (R173), computed exactly. -/
def sumSlots (b : Sparse Axis) : Nat → Nat
  | 0 => 0
  | m + 1 => sumSlots b m + (sparseRead 0 b m).toNat

/-! ### Outcomes -/

/-- An event that is enabled runs; one that is not does not occur (assumption 2). -/
def whenEnabled (g : Bool) (why : Guard) (t : State) : Host.Outcome State Fault Refusal :=
  if g then .next t else .refused (.notEnabled why)

/-! ### The bus -/

/-- `BusWrite(bytes)` (R14): one write transaction, seen as its entry in the bus history. -/
def busWrite (bytes : List Byte) (s : State) : State := { s with busLog := s.busLog ++ [.w bytes] }

/-- `FB <- BusRead(6)` (R14, R122, R141): one read transaction, seen as its entry in the bus history, all six
bytes replaced. No status is returned (R70). -/
def busReadToFb (d : Frame) (s : State) : State := { s with busLog := s.busLog ++ [.r d], fb := d }

/-- `Settle()` (R15, R290): a delay, which changes no state. -/
def settle (s : State) : State := s

/-- `Gap()` (R15, R291): a delay, which changes no state. -/
def gap (s : State) : State := s

/-! ### Error conditions and the interrupt -/

/-- The error taxonomy of R240 to R243. -/
inductive Condition where
  | identFailure
  | spikeFrame
  | busFailure
deriving DecidableEq, Repr

/-- The effect of an error condition. Nothing is saved and no cause is stored. `IdentFailure` enters the
signalling state (R240, R249); `SpikeFrame` selects the carry for the rest of the cycle (R241);
`BusFailure` is never raised and has no effect (R242). -/
def raiseCondition : Condition → State → State
  | .identFailure, s => { s with ph := .fail, indMode := .fail }
  | .spikeFrame, s => { s with rej := true }
  | .busFailure, s => s

/-- Entry to the cycle, the block's one interrupt: nothing is saved or stacked, the pending bit is cleared
(R140, R246, R248). -/
def enterCycle (s : State) : State := { s with tickPend := false }

/-- Return from the cycle (R250): nothing is restored, the producer is idle again with `PH = PH_RUN`. -/
def leaveCycle (s : State) : State := { s with cyc := .idle }

/-! ### The request line -/

/-- The consumer's user raises `rd_req` (R228). In `PH_FAIL` the request is never served (R227, U4), so nothing
is kept of it. Elsewhere it stays pending until a `HOLD` answers it, and `rd_done` falls, since the `latest()`
asked for has not completed (R226). A request raised while one is pending merges with it, and one raised
during a `latest()` stays pending for another after `RELEASE`: DESIGN CHOICE (assumption 13). -/
def raiseRdReq (s : State) : State :=
  { s with rdReq := s.rdReq || s.ph != .fail, rdDone := s.rdDone && s.ph == .fail }

/-! ### Bring-up -/

/-- A bring-up step that writes to the bus: the write, the settle delay, the sequencer's advance (R120, R121,
R124 to R126). -/
def bringUpWrite (bytes : List Byte) (next : Phase) (s : State) : State :=
  { settle (busWrite bytes s) with ph := next }

/-- The identification read (R122). -/
def bringUpRead (d : Frame) (s : State) : State := { busReadToFb d s with ph := .i3 }

/-- The classification of the sensor with a given verdict (R123). -/
def bringUpClass (verdict : Bool) (s : State) : State := { s with genuine := verdict, ph := .i4 }

/-! ### The micro-operations of the cycle -/

/-- `C_READ` (R141). -/
def microRead (d : Frame) (s : State) : State := { busReadToFb d s with cyc := .req }

/-- `C_REQ` (R142). -/
def microReq (s : State) : State := { busWrite [0x00] (gap s) with cyc := .valid }

/-- `C_VALID` with a given verdict (R143): `REJ <- verdict`, and `SpikeFrame` where the frame is rejected. -/
def microValid (spike : Bool) (s : State) : State :=
  if spike then { raiseCondition .spikeFrame s with cyc := .fill }
  else { s with rej := false, cyc := .fill }

/-- `C_UNPACK` (R160). -/
def microUnpack (s : State) : State := { s with samp := unpackFrame s.fb, cyc := .store }

/-- The sample a rejected frame carries (R145): the slot before the cursor, or the latest-sample slot. -/
def carriedSample (s : State) : Lanes Axis :=
  match s.cfg.policy with
  | .ma k => readSlot s.buf (prevSlot (.ma k) s.cur)
  | .pt => s.lat

/-- `C_CARRY` (R145). -/
def microCarry (s : State) : State := { s with samp := carriedSample s, cyc := .store }

/-- `C_STORE` (R171, R172 under `MA`, R176 under `PT`). -/
def microStore (s : State) : State :=
  match s.cfg.policy with
  | .ma k =>
    { s with buf := writeSlot s.buf s.cur s.samp, cur := nextSlot (.ma k) s.cur, cyc := .filter }
  | .pt => { s with lat := s.samp, cyc := .filter }

/-- The rounded mean of the M slots of one buffer (R173, R174): `(ACC + HALF) >> LOG2M`, in 10 bits. -/
def average (p : Policy) (b : Sparse Axis) : Axis :=
  BitVec.ofNat 10 ((sumSlots b (depth p) + half p) >>> log2m p)

/-- `C_AVG` (R173, R174). -/
def microAvg (s : State) : State :=
  { s with filt := ⟨average s.cfg.policy s.buf.x, average s.cfg.policy s.buf.y,
                    average s.cfg.policy s.buf.z⟩,
           cyc := .pub }

/-- `C_PASS` (R176). -/
def microPass (s : State) : State := { s with filt := s.samp, cyc := .pub }

/-- `C_PUB` (R210), after which the cycle returns (R250). -/
def microPub (s : State) : State :=
  leaveCycle { s with pub := ⟨publishedField s.filt.x, publishedField s.filt.y,
                              publishedField s.filt.z⟩ }

/-- The sample of the cycle: unpacked where the frame was accepted, carried where it was rejected (R146). -/
def microFill (s : State) : State := if s.rej then microCarry s else microUnpack s

/-- The filter the policy names (R146). -/
def microFilter (s : State) : State :=
  match s.cfg.policy with
  | .ma _ => microAvg s
  | .pt => microPass s

/-- The body of `CYCLE` in its order (R146). -/
def cycleBody (d : Frame) (s : State) : State :=
  let s1 := microReq (microRead d (enterCycle s))
  microPub (microFilter (microStore (microFill (microValid (isSpike s1.fb) s1))))

/-! ### The IIR transform -/

/-- The entry of `IIR_W` bits that holds a value (R38, R197): the value where it fits; else a free value of that
width, as the spec states none (assumption 11). -/
def heldEntry (w : Nat) (v : Int) : Int :=
  if fitsBits w v then v else (Config.iirOpenEntry w v).bmod (2 ^ w)

/-- A history whose entries are held in `IIR_W` bits (R38). -/
def heldHistory (w : Nat) (h : IirHistory) : IirHistory :=
  ⟨heldEntry w h.x1, heldEntry w h.x2, heldEntry w h.x3, heldEntry w h.x4,
   heldEntry w h.y1, heldEntry w h.y2, heldEntry w h.y3, heldEntry w h.y4⟩

/-- The accumulator of one step (R193), exact. -/
def iirAcc (t : IirTable) (h : IirHistory) (x : Int) : Int :=
  t.b0 * x + t.b1 * h.x1 + t.b2 * h.x2 + t.b3 * h.x3 + t.b4 * h.x4
    - t.a1 * h.y1 - t.a2 * h.y2 - t.a3 * h.y3 - t.a4 * h.y4

/-- `IIR_STEP` as a function of configuration, history and input alone (R193, R199): the output is the
accumulator shifted right arithmetically by `Q`, the histories shift by one; a step whose output does not fit
`IIR_W` bits is refused (R197). -/
def iirNext (c : Build) (h : IirHistory) (x : Axis) : Except Refusal (IirHistory × Int) :=
  let g := heldHistory c.iirW h
  let y := iirAcc c.iir g x.toNat >>> c.iir.q
  if fitsBits c.iirW y then
    .ok (⟨heldEntry c.iirW x.toNat, g.x1, g.x2, g.x3, y, g.y1, g.y2, g.y3⟩, y)
  else .error .iirWidth

/-- `IIR_SEQ` (R194): the outputs and the final history; refused where one of its steps is (R197). -/
def iirSeq (c : Build) : IirHistory → List Axis → Except Refusal (List Int × IirHistory)
  | h, [] => .ok ([], h)
  | h, x :: xs =>
    match iirNext c h x with
    | .error e => .error e
    | .ok (h', y) =>
      match iirSeq c h' xs with
      | .error e => .error e
      | .ok (ys, h'') => .ok (y :: ys, h'')

/-- `IIR_SEQ` on a fresh sequence, whose history is all zeros (R195, D23). -/
def iirFreshSeq (c : Build) (xs : List Axis) : Except Refusal (List Int × IirHistory) := iirSeq c zeroHistory xs

/-- `a[0]`, the fixed-point image of 1 (R191). -/
def iirA0 (t : IirTable) : Int := 2 ^ t.q

/-- The steady-state gain of the table is 1 (R192 (b)): the sums of `b` and of `a` are equal and not 0. -/
def iirUnitGain (t : IirTable) : Bool :=
  let sb := t.b0 + t.b1 + t.b2 + t.b3 + t.b4
  decide (sb = iirA0 t + t.a1 + t.a2 + t.a3 + t.a4 ∧ sb ≠ 0)

/-- Every entry of a history fits `w` bits (R38, R197). -/
def historyFits (w : Nat) (h : IirHistory) : Bool :=
  fitsBits w h.x1 && fitsBits w h.x2 && fitsBits w h.x3 && fitsBits w h.x4
    && fitsBits w h.y1 && fitsBits w h.y2 && fitsBits w h.y3 && fitsBits w h.y4

end Sys2Proof.Machine
end

