-- ==== Sys2Proof/Machine/Bringup.lean ====
section
/-! DEFINITION. The bring-up events and the failed state (40_bringup.md R120 to R131). -/

namespace Sys2Proof.Machine

open Sys2Proof

/-- `I_INIT` (R120). -/
def execIInit (s : State) : Host.Outcome State Fault Refusal :=
  whenEnabled (s.ph == .boot) .phase (bringUpWrite [0x40, 0x00] .i1 s)

/-- `I_IDQ` (R121). -/
def execIIdq (s : State) : Host.Outcome State Fault Refusal :=
  whenEnabled (s.ph == .i1) .phase (bringUpWrite [0xFA] .i2 s)

/-- `I_IDR` (R122): a 6-byte read with no sample request of its own (C4). -/
def execIIdr (d : Frame) (s : State) : Host.Outcome State Fault Refusal :=
  whenEnabled (s.ph == .i2) .phase (bringUpRead d s)

/-- `I_CLASS` (R123). -/
def execIClass (s : State) : Host.Outcome State Fault Refusal :=
  whenEnabled (s.ph == .i3) .phase (bringUpClass (isGenuine s.fb) s)

/-- `I_UNENC1` (R124), whatever `GENUINE` is. -/
def execIUnenc1 (s : State) : Host.Outcome State Fault Refusal :=
  whenEnabled (s.ph == .i4) .phase (bringUpWrite [0xF0, 0x55] .i5 s)

/-- `I_UNENC2` (R125), whatever `GENUINE` is. -/
def execIUnenc2 (s : State) : Host.Outcome State Fault Refusal :=
  whenEnabled (s.ph == .i5) .phase (bringUpWrite [0xFB, 0x00] .i6 s)

/-- `I_REQ` (R126), whatever `GENUINE` is. -/
def execIReq (s : State) : Host.Outcome State Fault Refusal :=
  whenEnabled (s.ph == .i6) .phase (bringUpWrite [0x00] .i7 s)

/-- The two ends of bring-up (R127): the timer is started for a genuine sensor; else `IdentFailure`. -/
def bringUpEnd (s : State) : State :=
  if s.genuine then { s with acqEn := true, indMode := .normal, ph := .run }
  else raiseCondition .identFailure s

/-- `I_START` (R127). -/
def execIStart (s : State) : Host.Outcome State Fault Refusal :=
  whenEnabled (s.ph == .i7) .phase (bringUpEnd s)

/-- `FAILSIG` (R128): the signalling loop, which changes no state. -/
def execFailsig (s : State) : Host.Outcome State Fault Refusal :=
  whenEnabled (s.ph == .fail) .phase { s with ph := .fail }

end Sys2Proof.Machine
end

