-- ==== Sys2Proof/Machine/Bus.lean ====
section
/-! DEFINITION. The bus commands (30_encoding.md R93). A bus command is issued by the sequencer at one place
of its program and nowhere else; the rule R92 names for it is that of the event or micro-operation that
carries it, and its meaning is that rule's: the transaction and the sequencer's advance, enabled where the
rule says (assumption 8). -/

namespace Sys2Proof.Machine

open Sys2Proof

/-- `BW_INIT`, the bus command of `I_INIT` (R120). -/
def execBwInit (s : State) : Host.Outcome State Fault Refusal :=
  whenEnabled (s.ph == .boot) .phase (bringUpWrite [0x40, 0x00] .i1 s)

/-- `BW_IDQ`, the bus command of `I_IDQ` (R121). -/
def execBwIdq (s : State) : Host.Outcome State Fault Refusal :=
  whenEnabled (s.ph == .i1) .phase (bringUpWrite [0xFA] .i2 s)

/-- `BR_FRAME`, the bus command of `I_IDR` during bring-up (R122) and of `C_READ` in a cycle (R141). -/
def execBrFrame (d : Frame) (s : State) : Host.Outcome State Fault Refusal :=
  if s.ph == .i2 then .next (bringUpRead d s)
  else whenEnabled (cycleReady s) .cycleEntry (microRead d (enterCycle s))

/-- `BW_UNENC1`, the bus command of `I_UNENC1` (R124). -/
def execBwUnenc1 (s : State) : Host.Outcome State Fault Refusal :=
  whenEnabled (s.ph == .i4) .phase (bringUpWrite [0xF0, 0x55] .i5 s)

/-- `BW_UNENC2`, the bus command of `I_UNENC2` (R125). -/
def execBwUnenc2 (s : State) : Host.Outcome State Fault Refusal :=
  whenEnabled (s.ph == .i5) .phase (bringUpWrite [0xFB, 0x00] .i6 s)

/-- `BW_REQ`, the bus command of `I_REQ` during bring-up (R126) and of `C_REQ` in a cycle (R142). -/
def execBwReq (s : State) : Host.Outcome State Fault Refusal :=
  if s.ph == .i6 then .next (bringUpWrite [0x00] .i7 s)
  else whenEnabled (s.cyc == .req) .cyclePosition (microReq s)

end Sys2Proof.Machine
end

