-- ==== Sys2Proof/Machine/Classes.lean ====
section
/-! DEFINITION. The frame classes: the two verdicts of the validator (41_frame_reader.md R143, R144) and of
the identification (40_bringup.md R123). A class operation carries the whole frame it classifies; it is
enabled where that classifier is at work on that frame in `FB` and the frame has that class
(assumption 9). -/

namespace Sys2Proof.Machine

open Sys2Proof

/-- `F_SPIKE` (R143): the validator rejects the frame in `FB`. -/
def execFSpike (u0 u1 xh yh : Byte) (s : State) : Host.Outcome State Fault Refusal :=
  whenEnabled (s.cyc == .valid && s.fb == ⟨u0, u1, xh, yh, 0xFE, 0xFE⟩) .frameClass (microValid true s)

/-- `F_VALID` (R144): the validator accepts the frame in `FB`, and the cycle continues with `C_UNPACK`. -/
def execFValid (u0 u1 xh yh zh : Byte) (u7 : BitVec 1) (zl yl xl : BitVec 2) (ub : BitVec 1) (s : State) :
    Host.Outcome State Fault Refusal :=
  whenEnabled
    (s.cyc == .valid && s.fb == ⟨u0, u1, xh, yh, zh, byte5Of u7 zl yl xl ub⟩ && !isSpike s.fb)
    .frameClass (microValid false s)

/-- `ID_GENUINE` (R123): the identification frame in `FB` has the genuine pattern. -/
def execIdGenuine (i0 i1 : Byte) (s : State) : Host.Outcome State Fault Refusal :=
  whenEnabled (s.ph == .i3 && s.fb == ⟨i0, i1, 0x9A, 0x1E, 0xFE, 0xFE⟩) .frameClass (bringUpClass true s)

/-- `ID_OTHER` (R123): the identification frame in `FB` differs from the genuine pattern. -/
def execIdOther (i0 i1 i2 i3 i4 i5 : Byte) (s : State) : Host.Outcome State Fault Refusal :=
  whenEnabled (s.ph == .i3 && s.fb == ⟨i0, i1, i2, i3, i4, i5⟩ && !isGenuine s.fb) .frameClass
    (bringUpClass false s)

end Sys2Proof.Machine
end

