-- ==== Sys2Proof/Machine/Consumer.lean ====
section
/-! DEFINITION. The consumer's events, the five steps of `latest()` (45_sample_latch.md R211 to R216). -/

namespace Sys2Proof.Machine

open Sys2Proof

/-- `HOLD` (R212). It takes the request pending on `rd_req`, and `rd_done` falls until this `latest()` has
completed (R226, assumption 13); it leaves `TICK_PEND`. As the request is taken here and not at `RELEASE`, a reset
that abandons this `latest()` drops it: R227 and R284 do not say; DESIGN CHOICE (assumption 13). -/
def execHold (s : State) : Host.Outcome State Fault Refusal :=
  whenEnabled (holdReady s) .consumerSeq
    { s with mask := true, rseq := .h0, rdReq := false, rdDone := false }

/-- `RDX` (R213). -/
def execRdx (s : State) : Host.Outcome State Fault Refusal :=
  whenEnabled (s.rseq == .h0) .consumerSeq { s with rep := { s.rep with x := s.pub.x }, rseq := .h1 }

/-- `RDY` (R214). -/
def execRdy (s : State) : Host.Outcome State Fault Refusal :=
  whenEnabled (s.rseq == .h1) .consumerSeq { s with rep := { s.rep with y := s.pub.y }, rseq := .h2 }

/-- `RDZ` (R215). -/
def execRdz (s : State) : Host.Outcome State Fault Refusal :=
  whenEnabled (s.rseq == .h2) .consumerSeq { s with rep := { s.rep with z := s.pub.z }, rseq := .h3 }

/-- `RELEASE` (R216), after which `rd_done` says that the `latest()` has completed (R226) and `REP_*` hold a
value (R26). -/
def execRelease (s : State) : Host.Outcome State Fault Refusal :=
  whenEnabled (s.rseq == .h3) .consumerSeq
    { s with mask := false, rseq := .idle, rdDone := true, repWritten := true }

end Sys2Proof.Machine
end

