-- ==== Sys2Proof/Machine/Control.lean ====
section
/-! DEFINITION. Reset (70_reset_and_hazards.md R280 to R284) and the timer tick (60_exceptions.md R245). -/

namespace Sys2Proof.Machine

open Sys2Proof

/-- The state after a reset (R280): every register of the block at its reset value; what is not the
block's stays (R282): the configuration, the result of the last IIR step, the schedule, the request line
(R227) and the count of the environment's choices (assumption 16). The request line stays as it stands: a request
that `HOLD` has taken and whose `latest()` this reset abandons is not raised again, and so is dropped; R284 and R227
do not say what becomes of it; DESIGN CHOICE (assumption 13). -/
def resetState (s : State) : State :=
  { State.reset with
    cfg := s.cfg, sched := s.sched, freeCtr := s.freeCtr, rdReq := s.rdReq,
    iirHist := s.iirHist, iirOut := s.iirOut }

/-- `RESET` (R280), enabled always. -/
def execReset (s : State) : Host.Outcome State Fault Refusal := .next (resetState s)

/-- `TICK` (R245): one pending bit, so that a tick while it is 1 changes nothing (R31, R253). -/
def execTick (s : State) : Host.Outcome State Fault Refusal :=
  whenEnabled s.acqEn .timerStopped { s with tickPend := true }

end Sys2Proof.Machine
end

