-- ==== Sys2Proof/Machine/Cycle.lean ====
section
/-! DEFINITION. The acquisition cycle as one atomic event (41_frame_reader.md R140, R146) and its
micro-operations one at a time, in the order of R103's expansion of `CYCLE`. A cycle run by
micro-operations begins with `C_READ`, which is enabled where `CYCLE` is and enters the cycle as `CYCLE`
does; until `C_PUB` has run, no other cycle and no hold begins (assumptions 6, 7). -/

namespace Sys2Proof.Machine

open Sys2Proof

/-- `CYCLE` (R140, R146). -/
def execCycle (d : Frame) (s : State) : Host.Outcome State Fault Refusal :=
  whenEnabled (cycleReady s) .cycleEntry (cycleBody d s)

/-- `C_READ` (R141), the first micro-operation of the cycle. -/
def execCRead (d : Frame) (s : State) : Host.Outcome State Fault Refusal :=
  whenEnabled (cycleReady s) .cycleEntry (microRead d (enterCycle s))

/-- `C_REQ` (R142), directly after `C_READ`, whatever the frame is. -/
def execCReq (s : State) : Host.Outcome State Fault Refusal :=
  whenEnabled (s.cyc == .req) .cyclePosition (microReq s)

/-- `C_VALID` (R143). -/
def execCValid (s : State) : Host.Outcome State Fault Refusal :=
  whenEnabled (s.cyc == .valid) .cyclePosition (microValid (isSpike s.fb) s)

/-- `C_UNPACK` (R160), when `REJ = 0`. -/
def execCUnpack (s : State) : Host.Outcome State Fault Refusal :=
  whenEnabled (s.cyc == .fill && !s.rej) .cyclePosition (microUnpack s)

/-- `C_CARRY` (R145), instead of `C_UNPACK` when `REJ = 1`. -/
def execCCarry (s : State) : Host.Outcome State Fault Refusal :=
  whenEnabled (s.cyc == .fill && s.rej) .cyclePosition (microCarry s)

/-- `C_STORE` (R171, R172, R176). -/
def execCStore (s : State) : Host.Outcome State Fault Refusal :=
  whenEnabled (s.cyc == .store) .cyclePosition (microStore s)

/-- `C_AVG` (R173, R174), under `POLICY = MA`. -/
def execCAvg (s : State) : Host.Outcome State Fault Refusal :=
  whenEnabled (s.cyc == .filter && s.cfg.policy != .pt) .cyclePosition (microAvg s)

/-- `C_PASS` (R176), under `POLICY = PT`. -/
def execCPass (s : State) : Host.Outcome State Fault Refusal :=
  whenEnabled (s.cyc == .filter && s.cfg.policy == .pt) .cyclePosition (microPass s)

/-- `C_PUB` (R210), the last micro-operation of every cycle. -/
def execCPub (s : State) : Host.Outcome State Fault Refusal :=
  whenEnabled (s.cyc == .pub) .cyclePosition (microPub s)

end Sys2Proof.Machine
end

