-- ==== Sys2Proof/Machine/Iir.lean ====
section
/-! DEFINITION. The event `IIR_STEP` (44_iir.md R193, R197): the transform applied to the history the caller
passes. It reads the configuration alone and writes no register of the block (R190). -/

namespace Sys2Proof.Machine

open Sys2Proof

/-- `IIR_STEP` (R193), enabled always; its result stands on the port `iir_out` (R226, assumption 10). A step
whose output does not fit `IIR_W` bits is refused, as R197 has it. -/
def execIirStep (h : IirHistory) (x : Axis) (s : State) : Host.Outcome State Fault Refusal :=
  match iirNext s.cfg h x with
  | .ok (h', y) => .next { s with iirHist := h', iirOut := y }
  | .error r => .refused r

end Sys2Proof.Machine
end

