-- ==== Sys2Proof/Machine/Dispatch.lean ====
section
/-! DEFINITION. The meaning of every operation: one arm per constructor of Instr. -/

namespace Sys2Proof.Machine

open Sys2Proof

def exec (i : Instr) (s : State) : Host.Outcome State Fault Refusal :=
  match i with
  | .bwInit => Sys2Proof.Machine.execBwInit s
  | .bwIdq => Sys2Proof.Machine.execBwIdq s
  | .brFrame d => Sys2Proof.Machine.execBrFrame d s
  | .bwUnenc1 => Sys2Proof.Machine.execBwUnenc1 s
  | .bwUnenc2 => Sys2Proof.Machine.execBwUnenc2 s
  | .bwReq => Sys2Proof.Machine.execBwReq s
  | .fSpike u0 u1 xh yh => Sys2Proof.Machine.execFSpike u0 u1 xh yh s
  | .fValid u0 u1 xh yh zh u7 zl yl xl ub => Sys2Proof.Machine.execFValid u0 u1 xh yh zh u7 zl yl xl ub s
  | .idGenuine i0 i1 => Sys2Proof.Machine.execIdGenuine i0 i1 s
  | .idOther i0 i1 i2 i3 i4 i5 => Sys2Proof.Machine.execIdOther i0 i1 i2 i3 i4 i5 s
  | .reset => Sys2Proof.Machine.execReset s
  | .iInit => Sys2Proof.Machine.execIInit s
  | .iIdq => Sys2Proof.Machine.execIIdq s
  | .iIdr d => Sys2Proof.Machine.execIIdr d s
  | .iClass => Sys2Proof.Machine.execIClass s
  | .iUnenc1 => Sys2Proof.Machine.execIUnenc1 s
  | .iUnenc2 => Sys2Proof.Machine.execIUnenc2 s
  | .iReq => Sys2Proof.Machine.execIReq s
  | .iStart => Sys2Proof.Machine.execIStart s
  | .tick => Sys2Proof.Machine.execTick s
  | .cycle d => Sys2Proof.Machine.execCycle d s
  | .hold => Sys2Proof.Machine.execHold s
  | .rdx => Sys2Proof.Machine.execRdx s
  | .rdy => Sys2Proof.Machine.execRdy s
  | .rdz => Sys2Proof.Machine.execRdz s
  | .release => Sys2Proof.Machine.execRelease s
  | .iirStep h x => Sys2Proof.Machine.execIirStep h x s
  | .failsig => Sys2Proof.Machine.execFailsig s
  | .cRead d => Sys2Proof.Machine.execCRead d s
  | .cReq => Sys2Proof.Machine.execCReq s
  | .cValid => Sys2Proof.Machine.execCValid s
  | .cUnpack => Sys2Proof.Machine.execCUnpack s
  | .cCarry => Sys2Proof.Machine.execCCarry s
  | .cStore => Sys2Proof.Machine.execCStore s
  | .cAvg => Sys2Proof.Machine.execCAvg s
  | .cPass => Sys2Proof.Machine.execCPass s
  | .cPub => Sys2Proof.Machine.execCPub s

end Sys2Proof.Machine
end

