-- ==== Sys2Proof/Machine/FreeRun.lean ====
section
/-! DEFINITION. How the next event comes about: the head line of the schedule, or, where nothing is
scheduled, an enabled event of the environment's choice (10_state.md R42, 45_sample_latch.md R218). -/

namespace Sys2Proof.Machine

open Sys2Proof

/-- Fetches the head line of the schedule. -/
def fetch (s : State) : Except Refusal (Instr × State) :=
  match decode s.sched with
  | .ok (i, rest) => .ok (i, { s with sched := rest })
  | .error e => .error (.undecodable e)

/-- An operation answers a next state here. -/
def runsHere (i : Instr) (s : State) : Bool :=
  match exec i s with
  | .next _ => true
  | .fault _ => false
  | .refused _ => false

/-- A move of the environment: it lets an event run, or its user raises `rd_req` (R228). -/
inductive Move where
  | op (i : Instr)
  | raiseRdReq
deriving DecidableEq, Repr

/-- The events at the grain of R218, and the micro-operations that finish a cycle begun by `C_READ`; the
oracle supplies the bytes of a read (R66), the caller the IIR operands, the history among them (R38, R193). `latest()` begins on a
request (R211, R260). -/
def freeEvents (s : State) : List Instr :=
  [.reset, .iInit, .iIdq, .iIdr (Config.oracle s.busLog s.freeCtr), .iClass, .iUnenc1, .iUnenc2, .iReq,
   .iStart, .tick, .cycle (Config.oracle s.busLog s.freeCtr), .rdx, .rdy, .rdz, .release,
   .iirStep (Config.freeHistory s.freeCtr) (Config.freeSample s.freeCtr), .failsig,
   .cReq, .cValid, .cUnpack, .cCarry, .cStore, .cAvg, .cPass, .cPub]
    ++ (if s.rdReq then [.hold] else [])

/-- The moves open in a state: the user's request at any time (R228), and every event that is enabled. -/
def freeMoves (s : State) : List Move :=
  .raiseRdReq :: ((freeEvents s).filter (runsHere · s)).map .op

/-- A move of the environment takes place. What a second request does is `raiseRdReq`'s (assumption 13). -/
def runMove (m : Move) (s : State) : Host.Outcome State Fault Refusal :=
  match m with
  | .op i => exec i s
  | .raiseRdReq => .next (raiseRdReq s)

/-- The move the environment chooses among the open ones. -/
def chosenMove (s : State) : Move :=
  (freeMoves s)[Config.freeChoice s.freeCtr % (freeMoves s).length]?.getD .raiseRdReq

/-- The environment has made one more choice of its own. -/
def countChoice (s : State) : State := { s with freeCtr := s.freeCtr + 1 }

/-- A step with nothing scheduled: any open move, by the environment's free choice (R42, R218). -/
def freeStep (s : State) : Host.Outcome State Fault Refusal :=
  runMove (chosenMove (countChoice s)) (countChoice s)

/-- A step with a line scheduled: the line is fetched and its operation runs. -/
def scheduledStep (s : State) : Host.Outcome State Fault Refusal :=
  match fetch s with
  | .ok (i, s') => exec i s'
  | .error r => .refused r

/-- The schedule with a word of the opcode table as its head line: the word in its format, its operand
bytes 0, and exactly the bytes of that line. Bytes that are no line are put there as they are. -/
def scheduleTableWord (nbits w : Nat) (sched : List Byte) : List Byte :=
  match tableBytes nbits w with
  | none => sched
  | some bs =>
    match decode bs with
    | .ok (_, rest) => bs.take (bs.length - rest.length) ++ sched
    | .error _ => bs ++ sched

end Sys2Proof.Machine
end

