-- ==== Sys2Proof/Machine/Step.lean ====
section
/-! DEFINITION. The step of the machine, and how the host places an instruction where the next step
fetches it. -/

namespace Sys2Proof.Machine

open Sys2Proof

/-- One step: the head line of the schedule, or a free move where nothing is scheduled (assumptions 1, 12). -/
def step (s : State) : Host.Outcome State Fault Refusal :=
  match s.sched with
  | [] => freeStep s
  | _ :: _ => scheduledStep s

/-- Places a word of the opcode table at the head of the schedule (assumptions 1, 14). -/
def State.withFetchWord (s : State) (nbits w : Nat) : State :=
  { s with sched := scheduleTableWord nbits w s.sched }

end Sys2Proof.Machine
end

