-- ==== Sys2Proof/Machine/Ports.lean ====
section
/-! DEFINITION. The output ports of the block (45_sample_latch.md R226) as functions of the state. -/

namespace Sys2Proof.Machine

open Sys2Proof

/-- `timer_en` (R226). -/
def portTimerEn (s : State) : Bool := s.acqEn

/-- `genuine` (R226): the return value of `initialize()`, valid from `PH_I4` on. -/
def portGenuine (s : State) : Option Bool :=
  match s.ph with
  | .boot | .i1 | .i2 | .i3 => none
  | .i4 | .i5 | .i6 | .i7 | .run | .fail => some s.genuine

/-- `ind` (R226, R264) at a point of the unknown time base: off before bring-up ends, then the waveform of
the mode (R34, D25). -/
def portInd (s : State) (time : Nat) : Bool :=
  match s.indMode with
  | .off => false
  | .normal => Config.indWave false time
  | .fail => Config.indWave true time

/-- `PUB_BTN` and `rep_btn`: hardwired, whatever the state (R25, R26, R229). -/
def portRepBtn (_ : State) : Byte := btnNone

/-- `rep_x`, `rep_y`, `rep_z` (R226): the registers `REP_*` as they stand, and beside them whether a `latest()`
has completed since reset. While the second part is false the first is a value that R26 gives no meaning to and a
reader must not take for a report; the read itself does not stop (DESIGN CHOICE, log 4: R26 has it be a fault). -/
def portRep (s : State) : Lanes Field × Bool := (s.rep, s.repWritten)

/-- `rd_done` (R226). -/
def portRdDone (s : State) : Bool := s.rdDone

/-- `iir_out(H', y)` (R226), the result of the last `IIR_STEP`. -/
def portIirOut (s : State) : IirHistory × Int := (s.iirHist, s.iirOut)

/-- The report handed to the consumer's user (R217, R303): the three fields and the button byte once `rd_done`
is up; nothing before the first completed `latest()` after reset (R26: the registers hold no report, so no 0 is
passed off as one), and nothing while a `latest()` is asked for or under way. -/
def readReport (s : State) : Option (Lanes Field × Byte) :=
  if (portRep s).2 && portRdDone s then some ((portRep s).1, portRepBtn s) else none

end Sys2Proof.Machine
end

