-- ==== Sys2Proof/Safety.lean ====
section
/-! DEFINITION. What counts as a safe run, in the terms the claims use: runs of several operations, the
invariants of 10_state.md R41 and of the sections that fix the control state, the shape of the bus history
(R44, R80, R129), the sample sequences the filter stage and the IIR transform are specified over (43_filters.md
R178 to R180, 44_iir.md R194), and the premises on infinite runs (70_reset_and_hazards.md R293, R294, R301). -/

namespace Sys2Proof.Machine

open Sys2Proof

/-- The state an outcome leads to, if there is one. -/
def nextOf : Host.Outcome State Fault Refusal → Option State
  | .next t => some t
  | .fault _ => none
  | .refused _ => none

/-- Runs operations in order; `none` where one has no next state. -/
def runOps : List Instr → State → Option State
  | [], s => some s
  | i :: is, s =>
    match exec i s with
    | .next t => runOps is t
    | .fault _ => none
    | .refused _ => none

/-! ### Control state -/

/-- The position of a phase in R28's table; the two absorbing phases stand last. -/
def phaseRank : Phase → Nat
  | .boot => 0
  | .i1 => 1
  | .i2 => 2
  | .i3 => 3
  | .i4 => 4
  | .i5 => 5
  | .i6 => 6
  | .i7 => 7
  | .run => 8
  | .fail => 8

/-- R41 (d): `MASK = 1` exactly when `RSEQ` is not `C_IDLE`; a read is in progress only in `PH_RUN` (R212). -/
abbrev MaskMatchesRead (s : State) : Prop :=
  (s.mask = true ↔ s.rseq ≠ .idle) ∧ (s.mask = true → s.ph = .run)

/-- R41 (e) and (f): the timer runs exactly in `PH_RUN`, and no tick is pending without it. -/
abbrev TimerMatchesPhase (s : State) : Prop :=
  (s.acqEn = true ↔ s.ph = .run) ∧ (s.tickPend = true → s.acqEn = true)

/-- A cycle is in progress only in `PH_RUN` and never during a hold (R140, R212, R251). -/
abbrev CycleExcludesHold (s : State) : Prop :=
  s.cyc ≠ .idle → s.ph = .run ∧ s.rseq = .idle

/-- The indicator and the identity flag agree with the phase (R30, R34, R127, R240). -/
abbrev IndicatorMatchesPhase (s : State) : Prop :=
  (s.indMode = .normal ↔ s.ph = .run) ∧ (s.indMode = .fail ↔ s.ph = .fail) ∧
  (s.ph = .run → s.genuine = true) ∧ (s.ph = .fail → s.genuine = false) ∧
  (phaseRank s.ph < 4 → s.genuine = false)

/-- The invariant of the control state. -/
abbrev ControlInv (s : State) : Prop :=
  MaskMatchesRead s ∧ TimerMatchesPhase s ∧ CycleExcludesHold s ∧ IndicatorMatchesPhase s

/-! ### Data -/

/-- R41 (b), R217: the published fields and the report fields hold 0 to 1023. -/
abbrev FieldsInRange (s : State) : Prop :=
  (s.pub.x.toNat < 1024 ∧ s.pub.y.toNat < 1024 ∧ s.pub.z.toNat < 1024) ∧
  (s.rep.x.toNat < 1024 ∧ s.rep.y.toNat < 1024 ∧ s.rep.z.toNat < 1024)

/-- The filter state of the policy (R23, R36, R37): under `MA` the buffers are in canonical form with slots
below M and the cursor is below M; what the policy has not is as reset left it. -/
def filterStateOk (s : State) : Bool :=
  match s.cfg.policy with
  | .ma k => Memory.wf (depth (.ma k)) s.buf && decide (s.cur < depth (.ma k)) && s.lat == lanesOf 0
  | .pt => s.buf == lanesOf [] && s.cur == 0

/-- The result of the last IIR step, history and output, fits `IIR_W` bits (R38, R197). -/
def historiesOk (s : State) : Bool := historyFits s.cfg.iirW s.iirHist && fitsBits s.cfg.iirW s.iirOut

/-- While `rd_done` is up no `latest()` is under way, and one has completed since reset (R226, R303). -/
abbrev ReportComplete (s : State) : Prop := s.rdDone = true → s.rseq = .idle ∧ s.repWritten = true

/-- What has been read so far of the published sample is still the published sample (R219, R220). -/
abbrev SnapshotOk (s : State) : Prop :=
  match s.rseq with
  | .idle => True
  | .h0 => True
  | .h1 => s.rep.x = s.pub.x
  | .h2 => s.rep.x = s.pub.x ∧ s.rep.y = s.pub.y
  | .h3 => s.rep.x = s.pub.x ∧ s.rep.y = s.pub.y ∧ s.rep.z = s.pub.z

/-! ### The shape of the bus history -/

/-- How far a bus history has come: `pre n` after `n` transactions of bring-up, then `ready` with a sample
requested, `owed` with a sample read and the next not yet requested. -/
inductive BusPos where
  | pre (n : Nat)
  | ready
  | owed
deriving DecidableEq, Repr

/-- The next transaction of the protocol (R44, R80, R129); `none` where the transaction is not the one that
comes next. -/
def busNext : BusPos → BusEvent → Option BusPos
  | .pre 0, .w b => if b = [0x40, 0x00] then some (.pre 1) else none
  | .pre 1, .w b => if b = [0xFA] then some (.pre 2) else none
  | .pre 2, .r _ => some (.pre 3)
  | .pre 3, .w b => if b = [0xF0, 0x55] then some (.pre 4) else none
  | .pre 4, .w b => if b = [0xFB, 0x00] then some (.pre 5) else none
  | .pre 5, .w b => if b = [0x00] then some .ready else none
  | .ready, .r _ => some .owed
  | .owed, .w b => if b = [0x00] then some .ready else none
  | _, _ => none

/-- Where a bus history stands in the protocol; `none` if it departs from it. -/
def busScan : BusPos → List BusEvent → Option BusPos
  | p, [] => some p
  | p, e :: es =>
    match busNext p e with
    | some p' => busScan p' es
    | none => none

/-- Where the bus history must stand for the producer's position. -/
def busPosOf : Phase → CyclePos → BusPos
  | .boot, _ => .pre 0
  | .i1, _ => .pre 1
  | .i2, _ => .pre 2
  | .i3, _ => .pre 3
  | .i4, _ => .pre 3
  | .i5, _ => .pre 4
  | .i6, _ => .pre 5
  | .i7, _ => .ready
  | .fail, _ => .ready
  | .run, .req => .owed
  | .run, _ => .ready

/-- The bus history follows the protocol and stands where the producer stands. -/
abbrev BusProtocolOk (s : State) : Prop :=
  busScan (.pre 0) s.busLog = some (busPosOf s.ph s.cyc)

/-! ### Sequences of samples -/

/-- One timer tick and the cycle it causes (R103 `tickcycle`). -/
def tickCycle (f : Frame) : List Instr := [.tick, .cycle f]

/-- The bring-up sequence (R103 `initialize`, R129). -/
def initializeOps (d : Frame) : List Instr :=
  [.iInit, .iIdq, .iIdr d, .iClass, .iUnenc1, .iUnenc2, .iReq, .iStart]

/-- One whole read (R103 `latest`, R211). -/
def latestOps : List Instr := [.hold, .rdx, .rdy, .rdz, .release]

/-- The cycle on a frame, one micro-operation at a time (R103, R146). -/
def cycleOps (p : Policy) (d : Frame) : List Instr :=
  [.cRead d, .cReq, .cValid, if isSpike d then .cCarry else .cUnpack, .cStore,
   match p with
   | .ma _ => .cAvg
   | .pt => .cPass,
   .cPub]

/-- The samples of a sequence of frames, accepted or carried, oldest first; `prev` is the sample before
them (R145, R148). -/
def samplesOf : Lanes Axis → List Frame → List (Lanes Axis)
  | _, [] => []
  | prev, f :: fs =>
    let v := if isSpike f then prev else unpackFrame f
    v :: samplesOf v fs

/-- The sum of the last `m` values of a sequence, values before its first counting as 0 (R178, R179). -/
def windowSum (m : Nat) (xs : List Nat) : Nat :=
  ((List.replicate m 0 ++ xs).drop xs.length).sum

/-! ### Sequences of IIR steps -/

/-- The expansion of `IIR_SEQ` (R103): one `IIR_STEP` a sample, the history threaded through. -/
def iirSeqOps (c : Build) : IirHistory → List Axis → List Instr
  | _, [] => []
  | h, x :: xs =>
    .iirStep h x ::
      (match iirNext c h x with
       | .ok (h', _) => iirSeqOps c h' xs
       | .error _ => [])

/-- A caller that runs `IIR_STEP` on one sample after the other, passes the history it gets on
`iir_out(H', y)` to the next step, and collects the outputs (R194, R195, R226); `none` where a step is
refused. -/
def callIirSeq : IirHistory → List Axis → State → Option (List Int × State)
  | _, [], s => some ([], s)
  | h, x :: xs, s =>
    match exec (.iirStep h x) s with
    | .next t =>
      match callIirSeq t.iirHist xs t with
      | some (ys, u) => some (t.iirOut :: ys, u)
      | none => none
    | .fault _ => none
    | .refused _ => none

/-! ### Infinite runs and the premises of fairness -/

/-- An infinite run of the events (R302): state `r n` goes to `r (n + 1)` by the move `ms n`. -/
def IsRun (ms : Nat → Move) (r : Nat → State) : Prop := ∀ n, runMove (ms n) (r n) = .next (r (n + 1))

/-- Weak fairness: where moves of a kind stay enabled from some point on, one of them is taken. -/
def WeaklyFair (enabled : State → Prop) (taken : Move → Prop) (ms : Nat → Move) (r : Nat → State) : Prop :=
  ∀ n, (∀ m, n ≤ m → enabled (r m)) → ∃ m, n ≤ m ∧ taken (ms m)

/-- A move that begins a cycle: `CYCLE`, or its first micro-operation (assumptions 6, 7, 8). -/
def BeginsCycle (m : Move) : Prop := ∃ d, m = .op (.cycle d) ∨ m = .op (.cRead d) ∨ m = .op (.brFrame d)

/-- A move that takes a cycle begun by its first micro-operation further (assumptions 6, 8, 9). -/
def ContinuesCycle (m : Move) : Prop :=
  (∃ i, i ∈ [.cReq, .bwReq, .cValid, .cUnpack, .cCarry, .cStore, .cAvg, .cPass, .cPub] ∧ m = .op i) ∨
  (∃ a b c d, m = .op (.fSpike a b c d)) ∨ ∃ a b c d e f g h i j, m = .op (.fValid a b c d e f g h i j)

/-- R301 (a): an enabled `CYCLE` eventually runs; a cycle begun by its first micro-operation goes on. -/
def CycleFair (ms : Nat → Move) (r : Nat → State) : Prop :=
  WeaklyFair (fun s => cycleReady s = true) BeginsCycle ms r ∧
  WeaklyFair (fun s => s.cyc ≠ .idle) ContinuesCycle ms r

/-- R294, R301 (b): weak fairness for the consumer's enabled events while `RSEQ` is not `C_IDLE`. -/
def ConsumerFair (ms : Nat → Move) (r : Nat → State) : Prop :=
  WeaklyFair (fun s => s.rseq ≠ .idle) (fun m => ∃ i, i ∈ latestOps ∧ m = .op i) ms r

/-- R301 (c): `TICK` occurs infinitely often in `PH_RUN`. -/
def TimerRuns (ms : Nat → Move) (r : Nat → State) : Prop :=
  WeaklyFair (fun s => s.ph = .run) (fun m => m = .op .tick) ms r

/-- The fairness the spec gives a run (R301, D27); nothing is assumed of `rd_req`. -/
def FairRun (ms : Nat → Move) (r : Nat → State) : Prop :=
  IsRun ms r ∧ CycleFair ms r ∧ ConsumerFair ms r ∧ TimerRuns ms r

/-- R293: no tick arrives while one is pending. -/
def NoOverrun (ms : Nat → Move) (r : Nat → State) : Prop := ∀ n, ms n = .op .tick → (r n).tickPend = false

end Sys2Proof.Machine
end

