-- ==== Sys2Proof/Certificates/Slice0/Obligations.lean ====
section
/-! DEFINITION. The statements about the model, from the numbered rules of spec/. A statement that an event
is not enabled says that it answers no next state there. -/

open Sys2Proof Sys2Proof.Machine

/-! ### Encoding -/

/-- Every well-formed operation decodes from its line, with what stands after the line left over (R93 to
R96, R99; the layout of a line is the model's, log 1). -/
def Obligations.DecodeOfEncodeIsTheOperation : Prop :=
  ∀ (i : Instr) (rest : List Byte), i.wf = true → decode (encode i ++ rest) = .ok (i, rest)

/-- Whatever decodes is a well-formed operation, and the bytes read are its line: no two lines mean one
operation and no bit of a line is ignored (log 1). -/
def Obligations.EncodeOfDecodeIsTheLine : Prop :=
  ∀ (bs rest : List Byte) (i : Instr), decode bs = .ok (i, rest) → i.wf = true ∧ bs = encode i ++ rest

/-- Words written out from R93 to R99 decode to the operations they stand for, one or more of each format an
operation has (the line they stand in is the model's, log 1). -/
def Obligations.WordsOfTheSpecDecode : Prop :=
  decode [1, 0x40, 0x00] = .ok (.bwInit, []) ∧ decode [0, 0xFA] = .ok (.bwIdq, []) ∧
  decode [1, 0xF0, 0x55] = .ok (.bwUnenc1, []) ∧ decode [1, 0xFB, 0x00] = .ok (.bwUnenc2, []) ∧
  decode [0, 0x00] = .ok (.bwReq, []) ∧
  decode [2, 0x12, 0x34, 0xAB, 0xCD, 0xEF, 0x55] = .ok (.brFrame ⟨0x12, 0x34, 0xAB, 0xCD, 0xEF, 0x55⟩, []) ∧
  decode [3, 0x12, 0x34, 0x56, 0x78, 0xFE, 0xFE] = .ok (.fSpike 0x12 0x34 0x56 0x78, []) ∧
  decode [4, 0x12, 0x34, 0x9A, 0x1E, 0xFE, 0xFE] = .ok (.idGenuine 0x12 0x34, []) ∧
  decode [6, 9] = .ok (.tick, []) ∧ decode [7, 6] = .ok (.cAvg, [])

/-- R95: a sample frame is `F_SPIKE` exactly if `FB[4]` and `FB[5]` are both 0xFE, that is if its word under
the mask 0xFFFF is 0xFEFE, else `F_VALID`; there is no third class and no frame is refused (the line is the
model's, log 1). -/
def Obligations.SampleFrameHasOneOfTwoClasses : Prop :=
  ∀ (f : Frame) (rest : List Byte),
    (w48OfFrame f &&& 0x00000000FFFF = 0x00000000FEFE ↔ f.b4 = 0xFE ∧ f.b5 = 0xFE) ∧
    (f.b4 = 0xFE ∧ f.b5 = 0xFE →
      decode (3 :: bytesOfFrame f ++ rest) = .ok (.fSpike f.b0 f.b1 f.b2 f.b3, rest)) ∧
    (¬(f.b4 = 0xFE ∧ f.b5 = 0xFE) → ∃ u7 zl yl xl ub,
      decode (3 :: bytesOfFrame f ++ rest) =
        .ok (.fValid f.b0 f.b1 f.b2 f.b3 f.b4 u7 zl yl xl ub, rest) ∧
      f.b5.toNat = u7.toNat * 128 + zl.toNat * 32 + yl.toNat * 8 + xl.toNat * 2 + ub.toNat)

/-- R100 (e): `EVT` labels from 18 on and `UOP` labels from 9 on name nothing and are refused (the line is the
model's, log 1). -/
def Obligations.LabelsThatNameNothingAreRefused : Prop :=
  (∀ (b : Byte) (rest : List Byte), 18 ≤ b.toNat → decode (6 :: b :: rest) = .error .unknownEvent) ∧
  (∀ (b : Byte) (rest : List Byte), 9 ≤ b.toNat → decode (7 :: b :: rest) = .error .unknownMicroOp)

/-! ### The step -/

/-- When the bytes at the head of the schedule decode to an operation, the step is that operation's meaning
on the state with its line taken off the schedule (the schedule is the model's, log 1). -/
def Obligations.StepRunsTheScheduledOperation : Prop :=
  ∀ (s : State) (i : Instr) (rest : List Byte), decode s.sched = .ok (i, rest) →
    step s = exec i { s with sched := rest }

/-- A run has no end (R302): with nothing scheduled, some move is always open and the step takes one
(log 12). -/
def Obligations.FreeStepAlwaysAnswersNext : Prop :=
  ∀ s : State, s.sched = [] → ∃ t, step s = .next t

/-! ### Bring-up -/

/-- R120: `I_INIT` writes 0x40 0x00, settles and goes to `PH_I1`, exactly in `PH_BOOT`. -/
def Obligations.InitEventWritesLegacySequence : Prop :=
  ∀ s : State,
    (s.ph = .boot → exec .iInit s = .next { s with busLog := s.busLog ++ [.w [0x40, 0x00]], ph := .i1 }) ∧
    (s.ph ≠ .boot → ∀ t, exec .iInit s ≠ .next t)

/-- R121: `I_IDQ` writes 0xFA, settles and goes to `PH_I2`, exactly in `PH_I1`. -/
def Obligations.IdentityQueryIsWritten : Prop :=
  ∀ s : State,
    (s.ph = .i1 → exec .iIdq s = .next { s with busLog := s.busLog ++ [.w [0xFA]], ph := .i2 }) ∧
    (s.ph ≠ .i1 → ∀ t, exec .iIdq s ≠ .next t)

/-- R122: `I_IDR` reads the six bytes the sensor answers into `FB` and goes to `PH_I3`, exactly in `PH_I2`;
no request follows it on the bus. -/
def Obligations.IdentificationFrameIsRead : Prop :=
  ∀ (s : State) (d : Frame),
    (s.ph = .i2 →
      exec (.iIdr d) s = .next { s with busLog := s.busLog ++ [.r d], fb := d, ph := .i3 }) ∧
    (s.ph ≠ .i2 → ∀ t, exec (.iIdr d) s ≠ .next t)

/-- R123: `I_CLASS` sets `GENUINE` exactly if bytes 2 to 5 are 0x9A 0x1E 0xFE 0xFE, whatever bytes 0 and 1
are, and goes to `PH_I4`, exactly in `PH_I3`. -/
def Obligations.ClassificationComparesBytesTwoToFive : Prop :=
  ∀ s : State,
    (s.ph = .i3 → exec .iClass s = .next
      { s with
        genuine := decide (s.fb.b2 = 0x9A ∧ s.fb.b3 = 0x1E ∧ s.fb.b4 = 0xFE ∧ s.fb.b5 = 0xFE), ph := .i4 }) ∧
    (s.ph ≠ .i3 → ∀ t, exec .iClass s ≠ .next t)

/-- R124: `I_UNENC1` writes 0xF0 0x55, settles and goes to `PH_I5`, exactly in `PH_I4`, whatever `GENUINE`
is. -/
def Obligations.FirstModeSwitchIsWritten : Prop :=
  ∀ s : State,
    (s.ph = .i4 → exec .iUnenc1 s = .next { s with busLog := s.busLog ++ [.w [0xF0, 0x55]], ph := .i5 }) ∧
    (s.ph ≠ .i4 → ∀ t, exec .iUnenc1 s ≠ .next t)

/-- R125: `I_UNENC2` writes 0xFB 0x00 in a transaction of its own, settles and goes to `PH_I6`, exactly in
`PH_I5`, whatever `GENUINE` is. -/
def Obligations.SecondModeSwitchIsWritten : Prop :=
  ∀ s : State,
    (s.ph = .i5 → exec .iUnenc2 s = .next { s with busLog := s.busLog ++ [.w [0xFB, 0x00]], ph := .i6 }) ∧
    (s.ph ≠ .i5 → ∀ t, exec .iUnenc2 s ≠ .next t)

/-- R126: `I_REQ` writes 0x00, settles and goes to `PH_I7`, exactly in `PH_I6`, whatever `GENUINE` is. -/
def Obligations.FirstSampleIsRequested : Prop :=
  ∀ s : State,
    (s.ph = .i6 → exec .iReq s = .next { s with busLog := s.busLog ++ [.w [0x00]], ph := .i7 }) ∧
    (s.ph ≠ .i6 → ∀ t, exec .iReq s ≠ .next t)

/-- R127: `I_START` starts the timer for a genuine sensor; for any other it raises `IdentFailure`, which
leaves `ACQ_EN` and enters the failed state; exactly in `PH_I7`. -/
def Obligations.StartDependsOnTheClassification : Prop :=
  ∀ s : State,
    (s.ph = .i7 → s.genuine = true →
      exec .iStart s = .next { s with acqEn := true, indMode := .normal, ph := .run }) ∧
    (s.ph = .i7 → s.genuine = false →
      exec .iStart s = .next { s with indMode := .fail, ph := .fail }) ∧
    (s.ph ≠ .i7 → ∀ t, exec .iStart s ≠ .next t)

/-- R128: `FAILSIG` runs exactly in `PH_FAIL`, always, and changes no state. -/
def Obligations.FailureSignalChangesNothing : Prop :=
  ∀ s : State, (s.ph = .fail → exec .failsig s = .next s) ∧ (s.ph ≠ .fail → ∀ t, exec .failsig s ≠ .next t)

/-- R129: from `PH_BOOT`, `initialize()` runs to its end for every sensor, its bus history is the same six
transactions for genuine and counterfeit devices, and it ends in `PH_RUN` or `PH_FAIL` by the
classification. -/
def Obligations.BringUpProducesSixTransactions : Prop :=
  ∀ (s : State) (d : Frame), s.ph = .boot →
    ∃ t, runOps (initializeOps d) s = some t ∧
      t.busLog = s.busLog ++ [.w [0x40, 0x00], .w [0xFA], .r d, .w [0xF0, 0x55], .w [0xFB, 0x00], .w [0x00]] ∧
      (t.genuine = true ↔ d.b2 = 0x9A ∧ d.b3 = 0x1E ∧ d.b4 = 0xFE ∧ d.b5 = 0xFE) ∧
      t.ph = (if t.genuine then .run else .fail)

/-! ### The bus commands and the frame classes -/

/-- A bus command runs as the event or micro-operation that carries it, and nowhere else (R93, R100 (d), R120
to R126, R141, R142; the reading is the model's, log 8; the position in a cycle is log 6, the entry by
`C_READ` log 7). -/
def Obligations.BusCommandRunsAsItsCarrier : Prop :=
  ∀ (s : State) (d : Frame),
    (s.ph = .boot → exec .bwInit s = .next { s with busLog := s.busLog ++ [.w [0x40, 0x00]], ph := .i1 }) ∧
    (s.ph = .i1 → exec .bwIdq s = .next { s with busLog := s.busLog ++ [.w [0xFA]], ph := .i2 }) ∧
    (s.ph = .i2 → exec (.brFrame d) s = .next { s with busLog := s.busLog ++ [.r d], fb := d, ph := .i3 }) ∧
    (s.ph = .i4 → exec .bwUnenc1 s = .next { s with busLog := s.busLog ++ [.w [0xF0, 0x55]], ph := .i5 }) ∧
    (s.ph = .i5 → exec .bwUnenc2 s = .next { s with busLog := s.busLog ++ [.w [0xFB, 0x00]], ph := .i6 }) ∧
    (s.ph = .i6 → exec .bwReq s = .next { s with busLog := s.busLog ++ [.w [0x00]], ph := .i7 }) ∧
    (s.ph = .run → s.tickPend = true → s.mask = false → s.cyc = .idle →
      exec (.brFrame d) s = .next
        { s with tickPend := false, busLog := s.busLog ++ [.r d], fb := d, cyc := .req }) ∧
    (s.ph ≠ .i6 → s.cyc = .req →
      exec .bwReq s = .next { s with busLog := s.busLog ++ [.w [0x00]], cyc := .valid }) ∧
    (s.ph ≠ .boot → ∀ t, exec .bwInit s ≠ .next t) ∧
    (s.ph ≠ .i1 → ∀ t, exec .bwIdq s ≠ .next t) ∧
    (s.ph ≠ .i2 → ¬(s.ph = .run ∧ s.tickPend = true ∧ s.mask = false ∧ s.cyc = .idle) →
      ∀ t, exec (.brFrame d) s ≠ .next t) ∧
    (s.ph ≠ .i4 → ∀ t, exec .bwUnenc1 s ≠ .next t) ∧
    (s.ph ≠ .i5 → ∀ t, exec .bwUnenc2 s ≠ .next t) ∧
    (s.ph ≠ .i6 → s.cyc ≠ .req → ∀ t, exec .bwReq s ≠ .next t)

/-- A frame class runs as the verdict of its classifier on the frame in `FB` (R123, R143, R144; the reading
is the model's, log 9): the verdict `REJ` of the validator, the verdict `GENUINE` of the classification; on
a frame of the other class, and where its classifier is not at work, it does not occur. -/
def Obligations.FrameClassRunsAsTheVerdict : Prop :=
  ∀ s : State,
    (s.cyc = .valid → s.fb.b4 = 0xFE → s.fb.b5 = 0xFE →
      exec (.fSpike s.fb.b0 s.fb.b1 s.fb.b2 s.fb.b3) s = .next { s with rej := true, cyc := .fill }) ∧
    (∀ u7 zl yl xl ub, s.cyc = .valid → s.fb.b5 = u7 ++ zl ++ yl ++ xl ++ ub →
      ¬(s.fb.b4 = 0xFE ∧ s.fb.b5 = 0xFE) →
      exec (.fValid s.fb.b0 s.fb.b1 s.fb.b2 s.fb.b3 s.fb.b4 u7 zl yl xl ub) s =
        .next { s with rej := false, cyc := .fill }) ∧
    (s.ph = .i3 → s.fb.b2 = 0x9A → s.fb.b3 = 0x1E → s.fb.b4 = 0xFE → s.fb.b5 = 0xFE →
      exec (.idGenuine s.fb.b0 s.fb.b1) s = .next { s with genuine := true, ph := .i4 }) ∧
    (s.ph = .i3 → ¬(s.fb.b2 = 0x9A ∧ s.fb.b3 = 0x1E ∧ s.fb.b4 = 0xFE ∧ s.fb.b5 = 0xFE) →
      exec (.idOther s.fb.b0 s.fb.b1 s.fb.b2 s.fb.b3 s.fb.b4 s.fb.b5) s =
        .next { s with genuine := false, ph := .i4 }) ∧
    (∀ u0 u1 xh yh t, exec (.fSpike u0 u1 xh yh) s = .next t →
      s.cyc = .valid ∧ s.fb = ⟨u0, u1, xh, yh, 0xFE, 0xFE⟩) ∧
    (∀ u0 u1 xh yh zh u7 zl yl xl ub t, exec (.fValid u0 u1 xh yh zh u7 zl yl xl ub) s = .next t →
      s.cyc = .valid ∧ s.fb = ⟨u0, u1, xh, yh, zh, u7 ++ zl ++ yl ++ xl ++ ub⟩ ∧
      ¬(s.fb.b4 = 0xFE ∧ s.fb.b5 = 0xFE)) ∧
    (∀ i0 i1 t, exec (.idGenuine i0 i1) s = .next t → s.ph = .i3 ∧ s.fb = ⟨i0, i1, 0x9A, 0x1E, 0xFE, 0xFE⟩) ∧
    (∀ i0 i1 i2 i3 i4 i5 t, exec (.idOther i0 i1 i2 i3 i4 i5) s = .next t →
      s.ph = .i3 ∧ s.fb = ⟨i0, i1, i2, i3, i4, i5⟩ ∧
      ¬(s.fb.b2 = 0x9A ∧ s.fb.b3 = 0x1E ∧ s.fb.b4 = 0xFE ∧ s.fb.b5 = 0xFE))

/-! ### The cycle and its micro-operations -/

/-- R140: with a tick pending in `PH_RUN`, no hold and no cycle in progress, a cycle runs; it does not begin
otherwise (that no cycle is in progress is the model's field `cyc`, log 6). Under R301's premises, as `FairRun`
has them, cycles begin again and again in a run that stays in `PH_RUN` with the consumer idle. -/
def Obligations.CycleRunsExactlyWhenTaken : Prop :=
  (∀ (s : State) (d : Frame),
    (∃ t, exec (.cycle d) s = .next t) ↔ s.ph = .run ∧ s.tickPend = true ∧ s.mask = false ∧ s.cyc = .idle) ∧
  ∀ (ms : Nat → Move) (r : Nat → State) (n : Nat), FairRun ms r → ControlInv (r 0) →
    (∀ m, n ≤ m → (r m).ph = .run ∧ (r m).rseq = .idle) → ∃ m, n ≤ m ∧ BeginsCycle (ms m)

/-- The whole cycle under `MA` (R146, R145, R171 to R174, R210): what it publishes is computed from the
slots after the store. Nothing else changes but the model's field `filt`, of whose value after the cycle
nothing is said (log 5). -/
def Obligations.CycleUnderMovingAverage : Prop :=
  ∀ (s : State) (d : Frame) (k : Nat), s.cfg.policy = .ma k →
    s.ph = .run → s.tickPend = true → s.mask = false → s.cyc = .idle →
    ∃ t, exec (.cycle d) s = .next t ∧
      t.samp = (if d.b4 = 0xFE ∧ d.b5 = 0xFE
        then readSlot s.buf ((s.cur + (2 ^ (k + 1) - 1)) % 2 ^ (k + 1)) else unpackFrame d) ∧
      (∀ j, readSlot t.buf j = if j = s.cur then t.samp else readSlot s.buf j) ∧
      t.cur = (s.cur + 1) % 2 ^ (k + 1) ∧
      t.pub.x.toNat =
        (((List.range (2 ^ (k + 1))).map fun i => (readSlot t.buf i).x.toNat).sum + 2 ^ k) / 2 ^ (k + 1) ∧
      t.pub.y.toNat =
        (((List.range (2 ^ (k + 1))).map fun i => (readSlot t.buf i).y.toNat).sum + 2 ^ k) / 2 ^ (k + 1) ∧
      t.pub.z.toNat =
        (((List.range (2 ^ (k + 1))).map fun i => (readSlot t.buf i).z.toNat).sum + 2 ^ k) / 2 ^ (k + 1) ∧
      t = { s with
        fb := d, rej := decide (d.b4 = 0xFE ∧ d.b5 = 0xFE), tickPend := false,
        busLog := s.busLog ++ [.r d, .w [0x00]],
        samp := t.samp, buf := t.buf, cur := t.cur, filt := t.filt, pub := t.pub }

/-- The whole cycle under `PT` (R146, R145, R176, R210): the accepted or carried sample is stored and
published. That the model's field `filt` keeps the sample after the cycle is the model's choice (log 5);
nothing else changes. -/
def Obligations.CycleUnderPassthrough : Prop :=
  ∀ (s : State) (d : Frame), s.cfg.policy = .pt →
    s.ph = .run → s.tickPend = true → s.mask = false → s.cyc = .idle →
    ∃ t, exec (.cycle d) s = .next t ∧
      t.samp = (if d.b4 = 0xFE ∧ d.b5 = 0xFE then s.lat else unpackFrame d) ∧
      t.pub.x.toNat = t.samp.x.toNat ∧ t.pub.y.toNat = t.samp.y.toNat ∧ t.pub.z.toNat = t.samp.z.toNat ∧
      t = { s with
        fb := d, rej := decide (d.b4 = 0xFE ∧ d.b5 = 0xFE), tickPend := false,
        busLog := s.busLog ++ [.r d, .w [0x00]],
        samp := t.samp, lat := t.samp, filt := t.samp, pub := t.pub }

/-- `C_READ`, `C_REQ` and `C_VALID` one at a time (R141 to R143): the frame is read whole, the next sample
requested whatever the frame is, and `REJ` is 1 exactly if both sentinel bytes match; each at its place in the
order of R146 and at no other (the position in the cycle is the model's, log 6; the entry by `C_READ`,
log 7). -/
def Obligations.ReadRequestAndValidate : Prop :=
  ∀ (s : State) (d : Frame),
    (s.ph = .run → s.tickPend = true → s.mask = false → s.cyc = .idle →
      exec (.cRead d) s = .next
        { s with tickPend := false, busLog := s.busLog ++ [.r d], fb := d, cyc := .req }) ∧
    (¬(s.ph = .run ∧ s.tickPend = true ∧ s.mask = false ∧ s.cyc = .idle) → ∀ t, exec (.cRead d) s ≠ .next t) ∧
    (s.cyc = .req → exec .cReq s = .next { s with busLog := s.busLog ++ [.w [0x00]], cyc := .valid }) ∧
    (s.cyc ≠ .req → ∀ t, exec .cReq s ≠ .next t) ∧
    (s.cyc = .valid → exec .cValid s = .next
      { s with rej := decide (s.fb.b4 = 0xFE ∧ s.fb.b5 = 0xFE), cyc := .fill }) ∧
    (s.cyc ≠ .valid → ∀ t, exec .cValid s ≠ .next t)

/-- `C_UNPACK` (R160): each axis is its designated byte times four plus its two bits of `FB[5]`, when
`REJ = 0`; it does not run when `REJ = 1`, nor out of its place in the order of R146 (the position in the cycle
is the model's, log 6). -/
def Obligations.UnpackAssemblesTenBitAxes : Prop :=
  ∀ s : State,
    (s.cyc = .fill → s.rej = false → ∃ v : Lanes Axis,
      exec .cUnpack s = .next { s with samp := v, cyc := .store } ∧
      v.x.toNat = s.fb.b2.toNat * 4 + s.fb.b5.toNat / 2 % 4 ∧
      v.y.toNat = s.fb.b3.toNat * 4 + s.fb.b5.toNat / 8 % 4 ∧
      v.z.toNat = s.fb.b4.toNat * 4 + s.fb.b5.toNat / 32 % 4) ∧
    (s.cyc ≠ .fill ∨ s.rej = true → ∀ t, exec .cUnpack s ≠ .next t)

/-- `C_CARRY` (R145): the slot before the cursor, `M - 1` before slot 0, or the latest-sample slot, all
three axes together, when `REJ = 1`; it does not run when `REJ = 0`, nor out of its place in the order of R146
(the position is log 6). -/
def Obligations.CarryRepeatsThePrecedingSample : Prop :=
  ∀ s : State,
    (∀ k, s.cfg.policy = .ma k → s.cyc = .fill → s.rej = true → s.cur < 2 ^ (k + 1) →
      exec .cCarry s = .next { s with
        samp := readSlot s.buf (if s.cur = 0 then 2 ^ (k + 1) - 1 else s.cur - 1), cyc := .store }) ∧
    (s.cfg.policy = .pt → s.cyc = .fill → s.rej = true →
      exec .cCarry s = .next { s with samp := s.lat, cyc := .store }) ∧
    (s.cyc ≠ .fill ∨ s.rej = false → ∀ t, exec .cCarry s ≠ .next t)

/-- `C_STORE` (R171, R172, R176): under `MA` slot `CUR` of each buffer holds the sample, every other slot
reads as before, and the cursor advances and wraps; under `PT` the latest-sample slot is written. Nothing
else changes, and it does not run out of its place in the order of R146 (the position is log 6). -/
def Obligations.StoreWritesTheSlotAtTheCursor : Prop :=
  ∀ s : State,
    (∀ k, s.cyc = .store → s.cfg.policy = .ma k → ∃ b : Lanes (Sparse Axis),
      exec .cStore s = .next { s with buf := b, cur := (s.cur + 1) % 2 ^ (k + 1), cyc := .filter } ∧
      readSlot b s.cur = s.samp ∧ ∀ j, j ≠ s.cur → readSlot b j = readSlot s.buf j) ∧
    (s.cyc = .store → s.cfg.policy = .pt → exec .cStore s = .next { s with lat := s.samp, cyc := .filter }) ∧
    (s.cyc ≠ .store → ∀ t, exec .cStore s ≠ .next t)

/-- `C_AVG` and `C_PASS` (R173, R174, R176): the sum of all M slots plus half of M, divided by M by a shift,
in each lane; or the sample itself; each runs under its own policy only (the position is log 6). -/
def Obligations.FilterAveragesOrPasses : Prop :=
  ∀ s : State,
    (∀ k, s.cfg.policy = .ma k → s.cyc = .filter → ∃ v : Lanes Axis,
      exec .cAvg s = .next { s with filt := v, cyc := .pub } ∧
      v.x.toNat =
        (((List.range (2 ^ (k + 1))).map fun i => (readSlot s.buf i).x.toNat).sum + 2 ^ k) / 2 ^ (k + 1) ∧
      v.y.toNat =
        (((List.range (2 ^ (k + 1))).map fun i => (readSlot s.buf i).y.toNat).sum + 2 ^ k) / 2 ^ (k + 1) ∧
      v.z.toNat =
        (((List.range (2 ^ (k + 1))).map fun i => (readSlot s.buf i).z.toNat).sum + 2 ^ k) / 2 ^ (k + 1)) ∧
    (s.cfg.policy = .pt → s.cyc = .filter → exec .cPass s = .next { s with filt := s.samp, cyc := .pub }) ∧
    (s.cyc ≠ .filter ∨ s.cfg.policy = .pt → ∀ t, exec .cAvg s ≠ .next t) ∧
    ((s.cyc ≠ .filter ∨ ∃ k, s.cfg.policy = .ma k) → ∀ t, exec .cPass s ≠ .next t)

/-- `C_PUB` (R210): the three fields are the filter results, zero-extended to 16 bits, written together, and
the cycle is over; it does not run out of its place in the order of R146 (the position is log 6). -/
def Obligations.PublishExtendsTheFilterResult : Prop :=
  ∀ s : State,
    (s.cyc = .pub → ∃ p : Lanes Field,
      exec .cPub s = .next { s with pub := p, cyc := .idle } ∧
      p.x.toNat = s.filt.x.toNat ∧ p.y.toNat = s.filt.y.toNat ∧ p.z.toNat = s.filt.z.toNat) ∧
    (s.cyc ≠ .pub → ∀ t, exec .cPub s ≠ .next t)

/-- A cycle is its micro-operations in R103's order, whatever the frame and the policy: the atomic event and
the expansion are enabled in the same states and end in the same state (R103, R146; logs 6 and 7). -/
def Obligations.CycleIsItsMicroOperations : Prop :=
  ∀ (s t : State) (d : Frame),
    exec (.cycle d) s = .next t ↔ runOps (cycleOps s.cfg.policy d) s = some t

/-- R148: a cycle on a rejected frame has the same effect on the filter state and on what is published as a
cycle on any accepted frame that unpacks to the sample of the preceding slot. -/
def Obligations.RejectedFrameActsAsARepeat : Prop :=
  ∀ (s t u : State) (f g : Frame),
    f.b4 = 0xFE → f.b5 = 0xFE → ¬(g.b4 = 0xFE ∧ g.b5 = 0xFE) →
    (∀ k, s.cfg.policy = .ma k →
      unpackFrame g = readSlot s.buf ((s.cur + (2 ^ (k + 1) - 1)) % 2 ^ (k + 1))) →
    (s.cfg.policy = .pt → unpackFrame g = s.lat) →
    exec (.cycle f) s = .next t → exec (.cycle g) s = .next u →
    t.buf = u.buf ∧ t.cur = u.cur ∧ t.lat = u.lat ∧ t.pub = u.pub

/-- R178, R179: after the cycles of a sequence of ticks from the reset filter state, each published field is
the rounded mean, halves up, of the last M samples, accepted or carried, samples before the first counting
as 0; the cursor is the number of cycles modulo M. -/
def Obligations.PublishedIsTheMeanOfTheLastSamples : Prop :=
  ∀ (k : Nat) (fs : List Frame) (s : State), s.cfg.policy = .ma k → s.ph = .run → s.acqEn = true →
    s.mask = false → s.cyc = .idle → s.buf = lanesOf [] → s.cur = 0 → fs ≠ [] →
    ∃ t, runOps (fs.flatMap tickCycle) s = some t ∧ t.cur = fs.length % 2 ^ (k + 1) ∧
      t.pub.x.toNat =
        (windowSum (2 ^ (k + 1)) ((samplesOf (lanesOf 0) fs).map fun v => v.x.toNat) + 2 ^ k) / 2 ^ (k + 1) ∧
      t.pub.y.toNat =
        (windowSum (2 ^ (k + 1)) ((samplesOf (lanesOf 0) fs).map fun v => v.y.toNat) + 2 ^ k) / 2 ^ (k + 1) ∧
      t.pub.z.toNat =
        (windowSum (2 ^ (k + 1)) ((samplesOf (lanesOf 0) fs).map fun v => v.z.toNat) + 2 ^ k) / 2 ^ (k + 1)

/-- R176 over a run: under `PT` the published value is exactly the last accepted or carried sample. -/
def Obligations.PassthroughPublishesTheLastSample : Prop :=
  ∀ (fs : List Frame) (f : Frame) (s : State), s.cfg.policy = .pt → s.ph = .run → s.acqEn = true →
    s.mask = false → s.cyc = .idle →
    ∃ t, runOps ((fs ++ [f]).flatMap tickCycle) s = some t ∧
      some t.lat = (samplesOf s.lat (fs ++ [f])).getLast? ∧
      t.pub.x.toNat = t.lat.x.toNat ∧ t.pub.y.toNat = t.lat.y.toNat ∧ t.pub.z.toNat = t.lat.z.toNat

/-! ### The unpacker and the filter as functions -/

/-- R162: for each axis the map from its 10 source bits to its value is a bijection, the axes use disjoint
bits, and the map from the 30 source bits (`FB[2..4]`, bits 6 to 1 of `FB[5]`) to the three values is a
bijection; no other bit of the frame reaches a result. -/
def Obligations.UnpackIsABijectionOfItsSourceBits : Prop :=
  (∀ f g : Frame,
    ((unpackFrame f).x = (unpackFrame g).x ↔
      f.b2 = g.b2 ∧ f.b5.extractLsb' 1 2 = g.b5.extractLsb' 1 2) ∧
    ((unpackFrame f).y = (unpackFrame g).y ↔
      f.b3 = g.b3 ∧ f.b5.extractLsb' 3 2 = g.b5.extractLsb' 3 2) ∧
    ((unpackFrame f).z = (unpackFrame g).z ↔
      f.b4 = g.b4 ∧ f.b5.extractLsb' 5 2 = g.b5.extractLsb' 5 2) ∧
    (unpackFrame f = unpackFrame g ↔
      f.b2 = g.b2 ∧ f.b3 = g.b3 ∧ f.b4 = g.b4 ∧ f.b5.extractLsb' 1 6 = g.b5.extractLsb' 1 6)) ∧
  (∀ v : Lanes Axis, ∃ f : Frame, unpackFrame f = v)

/-- R163: the frame built for given axis values unpacks to them whatever its open bits, and the validator
accepts it unless it is the sentinel's one alias. -/
def Obligations.PackedFrameUnpacksToItsValues : Prop :=
  ∀ (v : Lanes Axis) (b0 b1 : Byte) (u7 ub : BitVec 1),
    unpackFrame (packFrame v b0 b1 u7 ub) = v ∧
    (isSpike (packFrame v b0 b1 u7 ub) = true ↔
      v.z.toNat = 1019 ∧ v.x.toNat % 4 = 3 ∧ v.y.toNat % 4 = 3 ∧ u7 = 1 ∧ ub = 0)

/-- R174, R175: for every depth and every contents of a buffer, the average is the rounded quotient, halves
up (twice the sum plus M over twice M), and lies between the least and the greatest of the M slots. -/
def Obligations.AverageRoundsHalfUpWithinTheSlots : Prop :=
  ∀ (k lo hi : Nat) (b : Sparse Axis),
    (average (.ma k) b).toNat =
      (2 * ((List.range (2 ^ (k + 1))).map fun i => (sparseRead 0 b i).toNat).sum + 2 ^ (k + 1))
        / (2 * 2 ^ (k + 1)) ∧
    ((∀ i, i < 2 ^ (k + 1) → lo ≤ (sparseRead 0 b i).toNat ∧ (sparseRead 0 b i).toNat ≤ hi) →
      lo ≤ (average (.ma k) b).toNat ∧ (average (.ma k) b).toNat ≤ hi)

/-- R170, R8: a depth is a configuration exactly if it is a power of two and not 1; its `LOG2M` is then the
logarithm. -/
def Obligations.DepthIsAPowerOfTwoOrRefused : Prop :=
  (∀ k, policyOfDepth (2 ^ (k + 1)) = .ok (.ma k)) ∧
  (∀ m, (∀ k, m ≠ 2 ^ (k + 1)) → policyOfDepth m = .error .badDepth)

/-! ### The consumer -/

/-- `HOLD` (R212): sets `MASK` and goes to `C_H0`, exactly from `C_IDLE` in `PH_RUN` outside a cycle; it does
not clear `TICK_PEND` (that it takes the request line `rdReq` and that `rdDone` falls is the model's, log 13;
`cyc` is log 6). -/
def Obligations.HoldMasksTheTimer : Prop :=
  ∀ s : State,
    (s.rseq = .idle → s.ph = .run → s.cyc = .idle →
      exec .hold s = .next { s with mask := true, rseq := .h0, rdReq := false, rdDone := false }) ∧
    (¬(s.rseq = .idle ∧ s.ph = .run ∧ s.cyc = .idle) → ∀ t, exec .hold s ≠ .next t)

/-- R213: `RDX` copies all 16 bits of `PUB_X` to `REP_X`, exactly in `C_H0`. -/
def Obligations.ReadXCopiesThePublishedField : Prop :=
  ∀ s : State,
    (s.rseq = .h0 → exec .rdx s = .next { s with rep := ⟨s.pub.x, s.rep.y, s.rep.z⟩, rseq := .h1 }) ∧
    (s.rseq ≠ .h0 → ∀ t, exec .rdx s ≠ .next t)

/-- R214: `RDY` copies `PUB_Y` to `REP_Y`, exactly in `C_H1`. -/
def Obligations.ReadYCopiesThePublishedField : Prop :=
  ∀ s : State,
    (s.rseq = .h1 → exec .rdy s = .next { s with rep := ⟨s.rep.x, s.pub.y, s.rep.z⟩, rseq := .h2 }) ∧
    (s.rseq ≠ .h1 → ∀ t, exec .rdy s ≠ .next t)

/-- R215: `RDZ` copies `PUB_Z` to `REP_Z`, exactly in `C_H2`. -/
def Obligations.ReadZCopiesThePublishedField : Prop :=
  ∀ s : State,
    (s.rseq = .h2 → exec .rdz s = .next { s with rep := ⟨s.rep.x, s.rep.y, s.pub.z⟩, rseq := .h3 }) ∧
    (s.rseq ≠ .h2 → ∀ t, exec .rdz s ≠ .next t)

/-- `RELEASE` (R216): clears `MASK` and goes to `C_IDLE`, exactly from `C_H3` (that the port `rd_done` rises is a
field of the model, log 13, and so is that `REP_*` now hold a value, log 4). Under R294's premise, as
`ConsumerFair` has it, every hold of a run ends. -/
def Obligations.ReleaseUnmasksTheTimer : Prop :=
  (∀ s : State,
    (s.rseq = .h3 → exec .release s =
      .next { s with mask := false, rseq := .idle, rdDone := true, repWritten := true }) ∧
    (s.rseq ≠ .h3 → ∀ t, exec .release s ≠ .next t)) ∧
  ∀ (ms : Nat → Move) (r : Nat → State) (n : Nat), IsRun ms r → ConsumerFair ms r → ControlInv (r 0) →
    ∃ m, n ≤ m ∧ (r m).rseq = .idle ∧ (r m).mask = false

/-- R211, R217: a whole `latest()` hands out the published sample of its `HOLD` with the constant button
byte, as seven little-endian bytes if the image is wanted (R72; the value of the button byte and the layout
are the spec's decisions D14, D15). -/
def Obligations.LatestDeliversTheReport : Prop :=
  ∀ s : State, s.rseq = .idle → s.ph = .run → s.cyc = .idle →
    ∃ t, runOps latestOps s = some t ∧ readReport t = some (s.pub, 0x00) ∧ t.pub = s.pub ∧
      (reportImage t.rep).map BitVec.toNat =
        [s.pub.x.toNat % 256, s.pub.x.toNat / 256, s.pub.y.toNat % 256, s.pub.y.toNat / 256,
         s.pub.z.toNat % 256, s.pub.z.toNat / 256, 0]

/-- R26: after reset the registers `REP_*` hold no report until a `latest()` has completed: the port marks them
unwritten and no report is handed out, and no operation but `RELEASE` ends that time. That a read of the port then
gives a value beside the mark, where R26 speaks of a fault, is the model's choice (log 4). R303: a report is handed out only outside a `latest()`,
and once handed out it stays as it is over every operation but `HOLD` and `RESET`; right after a `HOLD`, and right
after a request outside `PH_FAIL`, none is (`repWritten`, `rdDone` and what moves `rd_done` are the model's,
logs 4, 13). -/
def Obligations.ReportIsWithheldUntilTheFirstRelease : Prop :=
  (∀ s t : State, exec .reset s = .next t → (portRep t).2 = false ∧ readReport t = none) ∧
  (∀ (s t : State) (i : Instr), (portRep s).2 = false → i ≠ .release →
    exec i s = .next t → (portRep t).2 = false ∧ readReport t = none) ∧
  (∀ (s : State) (p : Lanes Field × Byte), ReportComplete s → readReport s = some p →
    s.rseq = .idle ∧ p = (s.rep, 0x00)) ∧
  (∀ (s t : State) (i : Instr) (p : Lanes Field × Byte), ReportComplete s → readReport s = some p →
    i ≠ .hold → i ≠ .reset → exec i s = .next t → readReport t = some p) ∧
  (∀ s : State, s.ph ≠ .fail → readReport (raiseRdReq s) = none) ∧
  (∀ s t : State, exec .hold s = .next t → readReport t = none)

/-- R219, R75: no tearing. Whatever operations run between a `HOLD` and the next `RELEASE`, ticks among them but
no reset, the report of that `latest()` is the sample that was published at the `HOLD`, all three fields. -/
def Obligations.LatestNeverTears : Prop :=
  ∀ (s t u : State) (is : List Instr), runOps (.hold :: is) s = some t → .reset ∉ is → .release ∉ is →
    exec .release t = .next u → u.rep = s.pub ∧ u.pub = s.pub

/-- R74 (g): the consumer reads nothing of the producer but the published sample: two states that agree on
the registers of the consumer's domain, the published sample and what `HOLD` is enabled by give `latest()`
steps the same outcome in those registers. -/
def Obligations.ConsumerSeesOnlyThePublishedSample : Prop :=
  ∀ (s s' t : State) (i : Instr), i ∈ latestOps →
    s.pub = s'.pub → s.rep = s'.rep → s.rseq = s'.rseq → s.mask = s'.mask → s.ph = s'.ph → s.cyc = s'.cyc →
    exec i s = .next t →
    ∃ t', exec i s' = .next t' ∧ t'.rep = t.rep ∧ t'.rseq = t.rseq ∧ t'.mask = t.mask ∧ t'.pub = t.pub

/-! ### The timer, reset, the IIR transform -/

/-- R245: `TICK` sets the one pending bit, exactly while the timer runs; where the bit is already 1 nothing
changes. -/
def Obligations.TickSetsThePendingBit : Prop :=
  ∀ s : State,
    (s.acqEn = true → exec .tick s = .next { s with tickPend := true }) ∧
    (s.acqEn = true → s.tickPend = true → exec .tick s = .next s) ∧
    (s.acqEn = false → ∀ t, exec .tick s ≠ .next t)

/-- `RESET` (R280, R282): enabled always, every register to its reset value; the configuration stays, and so do
the result of the last IIR step and the environment's fields (log 16). That the registers R43 leaves
unspecified become 0 is log 4 and not said here; `cyc`, `repWritten` and `rdDone` are logs 6, 4 and 13, and
that the request line stays, so that a request `HOLD` has taken is dropped, is log 13. -/
def Obligations.ResetRestoresEveryRegister : Prop :=
  ∀ s : State, ∃ t, exec .reset s = .next t ∧
    (∀ j, readSlot t.buf j = lanesOf 0) ∧ t.cur = 0 ∧ t.lat = lanesOf 0 ∧ t.pub = lanesOf 0 ∧
    t.genuine = false ∧ t.acqEn = false ∧ t.tickPend = false ∧ t.mask = false ∧ t.indMode = .off ∧
    t.ph = .boot ∧ t.rseq = .idle ∧ t.cyc = .idle ∧ t.busLog = [] ∧ t.repWritten = false ∧ t.rdDone = false ∧
    t.cfg = s.cfg ∧ t.iirHist = s.iirHist ∧ t.iirOut = s.iirOut ∧ t.sched = s.sched ∧
    t.freeCtr = s.freeCtr ∧ t.rdReq = s.rdReq

/-- `IIR_STEP` (R193, R190, R197, R199): for the history `g` the caller passes and the output `y`, the floor of
the exact accumulator over `2^Q`: where `y` fits `IIR_W` bits the result on the port is `y` and the history
shifted by one, and every register of the block stays; where it does not, there is no next state. An entry of
the passed history, and the input where it becomes one, is the value itself where it fits `IIR_W` bits; where
it does not, the entry is a value of `IIR_W` bits of which nothing else is said, and the step runs all the same
(log 11). That the result stands in State until the next step is log 10. -/
def Obligations.IirStepFloorsTheExactSum : Prop :=
  (∀ (s : State) (h g : IirHistory) (x : Axis) (acc y : Int),
    g = heldHistory s.cfg.iirW h →
    acc = s.cfg.iir.b0 * x.toNat + s.cfg.iir.b1 * g.x1 + s.cfg.iir.b2 * g.x2 + s.cfg.iir.b3 * g.x3
      + s.cfg.iir.b4 * g.x4 - s.cfg.iir.a1 * g.y1 - s.cfg.iir.a2 * g.y2 - s.cfg.iir.a3 * g.y3
      - s.cfg.iir.a4 * g.y4 →
    y * 2 ^ s.cfg.iir.q ≤ acc → acc < (y + 1) * 2 ^ s.cfg.iir.q →
    (fitsBits s.cfg.iirW y = true → exec (.iirStep h x) s = .next
      { s with iirHist := ⟨heldEntry s.cfg.iirW x.toNat, g.x1, g.x2, g.x3, y, g.y1, g.y2, g.y3⟩, iirOut := y }) ∧
    (fitsBits s.cfg.iirW y = false → ∀ t, exec (.iirStep h x) s ≠ .next t)) ∧
  (∀ (w : Nat) (h : IirHistory), historyFits w h = true → heldHistory w h = h) ∧
  (∀ (w : Nat) (v : Int), fitsBits w v = true → heldEntry w v = v) ∧
  (∀ (w : Nat) (v : Int), fitsBits w (heldEntry w v) = true)

/-- R194, R196, R197: `IIR_SEQ` takes the samples in order and threads the history through: each further sample adds
the output of `IIR_STEP` from the history so far, and its history is the one that is left. The output has as
many elements as the input; the empty sequence gives the empty sequence and leaves the history. A caller that
runs the operation `IIR_STEP` so, passing on the history it gets, gets exactly `IIR_SEQ`'s outputs and history
from every state, and none where a step is refused; its operations are R103's expansion. That the result of a
step stands in State, where the caller finds it, is the model's choice (log 10). -/
def Obligations.IirSequenceThreadsTheHistory : Prop :=
  (∀ (c : Build) (h : IirHistory), iirSeq c h [] = .ok ([], h)) ∧
  (∀ (c : Build) (h h' : IirHistory) (xs : List Axis) (ys : List Int),
    iirSeq c h xs = .ok (ys, h') → ys.length = xs.length) ∧
  (∀ (c : Build) (h h' h'' : IirHistory) (xs : List Axis) (ys : List Int) (x : Axis) (y : Int),
    iirSeq c h xs = .ok (ys, h') → iirNext c h' x = .ok (h'', y) →
      iirSeq c h (xs ++ [x]) = .ok (ys ++ [y], h'')) ∧
  (∀ (c : Build) (h h' : IirHistory) (xs : List Axis) (ys : List Int) (x : Axis) (e : Refusal),
    iirSeq c h xs = .ok (ys, h') → iirNext c h' x = .error e → iirSeq c h (xs ++ [x]) = .error e) ∧
  (∀ (c : Build) (h : IirHistory) (xs : List Axis) (x : Axis) (e : Refusal),
    iirSeq c h xs = .error e → iirSeq c h (xs ++ [x]) = .error e) ∧
  (∀ (s t : State) (h : IirHistory) (x : Axis) (xs : List Axis) (ys : List Int) (y : Int),
    callIirSeq h (xs ++ [x]) s = some (ys ++ [y], t) ↔
      ∃ h', iirSeq s.cfg h (xs ++ [x]) = .ok (ys ++ [y], h') ∧ t = { s with iirHist := h', iirOut := y }) ∧
  (∀ (s t : State) (h : IirHistory) (xs : List Axis) (ys : List Int), callIirSeq h xs s = some (ys, t) →
    runOps (iirSeqOps s.cfg h xs) s = some t)

/-- R195: a caller that continues a sequence with the final history of the earlier call gets what one call on
the concatenation gives; the same holds of the operations a caller runs (the history it passes on is the one
on the port, log 10). -/
def Obligations.IirSequenceContinues : Prop :=
  (∀ (c : Build) (h h' h'' : IirHistory) (xs xs' : List Axis) (ys ys' : List Int),
    iirSeq c h xs = .ok (ys, h') → iirSeq c h' xs' = .ok (ys', h'') →
      iirSeq c h (xs ++ xs') = .ok (ys ++ ys', h'')) ∧
  (∀ (s t u : State) (h : IirHistory) (xs xs' : List Axis) (ys ys' : List Int), xs ≠ [] →
    callIirSeq h xs s = some (ys, t) → callIirSeq t.iirHist xs' t = some (ys', u) →
      callIirSeq h (xs ++ xs') s = some (ys ++ ys', u))

/-! ### Rules over all operations -/

/-- R20, R23, R24, R26, R27, R30, R32, R33, R34, R36, R37: who writes what. `GENUINE` changes only in the
classification (that the classes `ID_GENUINE` and `ID_OTHER` are one is log 9), `PUB_*` only in a publish,
`MASK` only in `HOLD` and `RELEASE`, the buffers, the cursor and the latest-sample slot only in a store,
`ACQ_EN` and `IND_MODE` only in `I_START`, `REP_*` only in `RDX`, `RDY` and `RDZ`, or each in a reset. -/
def Obligations.RegistersAreWrittenByTheirOwners : Prop :=
  ∀ (i : Instr) (s t : State), exec i s = .next t → i ≠ .reset →
    (t.genuine ≠ s.genuine → i = .iClass ∨ (∃ a b, i = .idGenuine a b) ∨
      ∃ a b c d e f, i = .idOther a b c d e f) ∧
    (t.pub ≠ s.pub → i = .cPub ∨ ∃ d, i = .cycle d) ∧
    (t.mask ≠ s.mask → i = .hold ∨ i = .release) ∧
    (t.buf ≠ s.buf ∨ t.cur ≠ s.cur ∨ t.lat ≠ s.lat → i = .cStore ∨ ∃ d, i = .cycle d) ∧
    (t.acqEn ≠ s.acqEn ∨ t.indMode ≠ s.indMode → i = .iStart) ∧
    (t.rep ≠ s.rep → i = .rdx ∨ i = .rdy ∨ i = .rdz)

/-- R28: `PH` advances by at most one row of its table and never goes back, `PH_RUN` and `PH_FAIL` are left by
nothing but a reset. -/
def Obligations.PhaseAdvancesByOneRow : Prop :=
  ∀ (i : Instr) (s t : State), exec i s = .next t → i ≠ .reset →
    (t.ph = s.ph ∨ phaseRank t.ph = phaseRank s.ph + 1) ∧ (s.ph = .run → t.ph = .run) ∧
    (s.ph = .fail → t.ph = .fail)

/-- R8, R42, R44: no operation changes the configuration, and the bus history only grows but for a reset. -/
def Obligations.ConfigurationStaysAndHistoryGrows : Prop :=
  ∀ (i : Instr) (s t : State), exec i s = .next t →
    t.cfg = s.cfg ∧ (i ≠ .reset → ∃ es, t.busLog = s.busLog ++ es)

/-- R128, R252: the failed state is for good. In a state the machine can be in (`ControlInv`), nothing but a
reset and an IIR step changes anything once `PH = PH_FAIL`. -/
def Obligations.FailedStateIsForGood : Prop :=
  ∀ (i : Instr) (s t : State), ControlInv s → s.ph = .fail → exec i s = .next t →
    i = .reset ∨ (∃ h x, i = .iirStep h x) ∨ t = s

/-! ### Invariants -/

/-- The state right after reset meets every invariant below (R41, R43). The clauses on `REP_*` and on the result
of the last IIR step rest on the model's values (logs 4, 10). -/
def Obligations.ResetMeetsTheInvariants : Prop :=
  ControlInv State.reset ∧ FieldsInRange State.reset ∧ filterStateOk State.reset = true ∧
  historiesOk State.reset = true ∧ SnapshotOk State.reset ∧ ReportComplete State.reset ∧
  BusProtocolOk State.reset

/-- R41 (d), (e), (f) with R30, R34, R140, R212: every step keeps the control state consistent. -/
def Obligations.StepKeepsTheControlState : Prop :=
  ∀ s t : State, ControlInv s → step s = .next t → ControlInv t

/-- R41 (a), (b), R36, R37, R217: every step keeps the buffers in canonical form below M, the cursor below M and
the published and report fields in 0 to 1023. That the report fields are in range after a reset rests on the
model's 0 for them (log 4); the canonical form is log 15. -/
def Obligations.StepKeepsTheFilterStateInRange : Prop :=
  ∀ s t : State, filterStateOk s = true → FieldsInRange s → step s = .next t →
    filterStateOk t = true ∧ FieldsInRange t

/-- R38, R197: every step keeps the result of the last IIR step, each entry of its history and its output, within
`IIR_W` bits, whatever history a caller passes (that the result stands in State is log 10, what an entry that
does not fit is held as log 11). -/
def Obligations.StepKeepsTheIirHistories : Prop :=
  ∀ s t : State, historiesOk s = true → step s = .next t → historiesOk t = true

/-- R44, R80, R93, R129: every step keeps the bus history within the protocol, bring-up's six transactions and
then a read followed by a request for each cycle, in step with the producer. -/
def Obligations.StepKeepsTheBusProtocol : Prop :=
  ∀ s t : State, ControlInv s → BusProtocolOk s → step s = .next t → BusProtocolOk t

/-- R219, R220, R303: every step keeps what the consumer has read so far equal to the published sample, and
`rd_done` up only outside a `latest()` (`rdDone` is log 13). -/
def Obligations.StepKeepsTheSnapshot : Prop :=
  ∀ s t : State, ControlInv s → SnapshotOk s → ReportComplete s → step s = .next t →
    SnapshotOk t ∧ ReportComplete t
end

