-- ==== Sys2Proof/Laws/Codec.lean ====
section
/-! SUPPORT. The codec of the history entries in a line: what is read after what is written, and back. -/

namespace Sys2Proof.Laws

open Sys2Proof

/-- A signed entry is the entry of its number. -/
@[simp] theorem entryOfNat_natOfEntry (v : Int) : entryOfNat (natOfEntry v) = v := by
  cases v with
  | ofNat n => simp [natOfEntry, entryOfNat]
  | negSucc n =>
    have h : (2 * n + 1) % 2 = 1 ∧ (2 * n + 1) / 2 = n := by omega
    simp [natOfEntry, entryOfNat, h]

/-- A number is the number of its entry. -/
@[simp] theorem natOfEntry_entryOfNat (n : Nat) : natOfEntry (entryOfNat n) = n := by
  unfold entryOfNat
  split <;> simp only [natOfEntry] <;> omega

theorem groupsOfNat_of_not_lt {fuel n : Nat} (h : ¬n < 128) :
    groupsOfNat (fuel + 1) n = BitVec.ofNat 8 (128 + n % 128) :: groupsOfNat fuel (n / 128) := by
  simp [groupsOfNat, h]

/-- A number written with fuel enough for its groups is read back, and the bytes after it are left. -/
theorem takeNat_groupsOfNat (fuel n : Nat) (rest : List Byte) (h : n < 128 ^ (fuel + 1)) :
    takeNat (groupsOfNat fuel n ++ rest) = .ok (n, rest) := by
  induction fuel generalizing n with
  | zero =>
    have hn : n < 128 := by simpa using h
    have h8 : n % 256 = n := Nat.mod_eq_of_lt (by omega)
    simp [groupsOfNat, takeNat, Nat.mod_eq_of_lt hn, h8, hn]
  | succ fuel ih =>
    unfold groupsOfNat
    split
    · rename_i hn
      have h8 : n % 256 = n := Nat.mod_eq_of_lt (by omega)
      simp [takeNat, h8, hn]
    · rename_i hn
      have hd : n / 128 < 128 ^ (fuel + 1) := by
        rw [Nat.div_lt_iff_lt_mul (by decide)]
        calc n < 128 ^ (fuel + 1 + 1) := h
          _ = 128 ^ (fuel + 1) * 128 := Nat.pow_succ _ _
      have hb : (BitVec.ofNat 8 (128 + n % 128)).toNat = 128 + n % 128 := by
        rw [BitVec.toNat_ofNat]
        omega
      obtain ⟨m, hm⟩ : ∃ m, n / 128 = m + 1 := ⟨n / 128 - 1, by omega⟩
      rw [List.cons_append, takeNat, hb, if_neg (by omega), ih (n / 128) hd, hm]
      simp only [Except.ok.injEq, Prod.mk.injEq, and_true]
      omega

/-- The fuel of `bytesOfEntry` is enough for every number. -/
theorem lt_groups (n : Nat) : n < 128 ^ (n.log2 + 1 + 1) := by
  calc n < 2 ^ (n.log2 + 1) := Nat.lt_log2_self
    _ ≤ 128 ^ (n.log2 + 1) := Nat.pow_le_pow_left (by decide) _
    _ ≤ 128 ^ (n.log2 + 1 + 1) := Nat.pow_le_pow_right (by decide) (Nat.le_succ _)

/-- A history entry written is read back. -/
@[simp] theorem withEntry_bytesOfEntry {α : Type} (k : Int → List Byte → Except DecodeError α) (v : Int)
    (rest : List Byte) : withEntry k (bytesOfEntry v ++ rest) = k v rest := by
  simp [withEntry, bytesOfEntry, takeNat_groupsOfNat _ _ rest (lt_groups _)]

/-- A history written is read back. -/
@[simp] theorem withHistory_bytesOfHistory {α : Type} (k : IirHistory → List Byte → Except DecodeError α)
    (h : IirHistory) (rest : List Byte) : withHistory k (bytesOfHistory h ++ rest) = k h rest := by
  simp [withHistory, bytesOfHistory, List.append_assoc]

/-- The groups of a number do not depend on the fuel, once it is enough. -/
theorem groupsOfNat_fuel (f g n : Nat) (hf : n < 128 ^ (f + 1)) (hg : n < 128 ^ (g + 1)) :
    groupsOfNat f n = groupsOfNat g n := by
  induction f generalizing g n with
  | zero =>
    have hn : n < 128 := by simpa using hf
    cases g <;> simp [groupsOfNat, hn, Nat.mod_eq_of_lt hn]
  | succ f ih =>
    cases g with
    | zero =>
      have hn : n < 128 := by simpa using hg
      simp [groupsOfNat, hn, Nat.mod_eq_of_lt hn]
    | succ g =>
      unfold groupsOfNat
      split
      · rfl
      · have hd : ∀ k, n < 128 ^ (k + 1 + 1) → n / 128 < 128 ^ (k + 1) := fun k hk => by
          rw [Nat.div_lt_iff_lt_mul (by decide), ← Nat.pow_succ]
          exact hk
        rw [ih g (n / 128) (hd f hf) (hd g hg)]

/-- What is read as a number is its shortest form: the bytes read are those it is written as. -/
theorem takeNat_ok (bs rest : List Byte) (n : Nat) (h : takeNat bs = .ok (n, rest)) :
    bs = groupsOfNat (n.log2 + 1) n ++ rest := by
  induction bs generalizing n with
  | nil => simp [takeNat] at h
  | cons b bs ih =>
    simp only [takeNat] at h
    split at h
    · rename_i hb
      obtain ⟨rfl, rfl⟩ : b.toNat = n ∧ bs = rest := by simpa using h
      simp [groupsOfNat, hb]
    · rename_i hb
      cases ht : takeNat bs with
      | error e => rw [ht] at h; simp at h
      | ok p =>
        obtain ⟨m, rest'⟩ := p
        rw [ht] at h
        cases m with
        | zero => simp at h
        | succ m =>
          obtain ⟨hn, rfl⟩ : b.toNat - 128 + 128 * (m + 1) = n ∧ rest' = rest := by simpa using h
          have hlt := b.isLt
          have hdiv : n / 128 = m + 1 := by omega
          have hmod : 128 + n % 128 = b.toNat := by omega
          have hbig : ¬n < 128 := by omega
          rw [ih (m + 1) ht, groupsOfNat_of_not_lt hbig, hdiv, hmod]
          have hg : groupsOfNat n.log2 (m + 1) = groupsOfNat ((m + 1).log2 + 1) (m + 1) := by
            apply groupsOfNat_fuel _ _ _ _ (lt_groups _)
            have := lt_groups n
            rw [← hdiv, Nat.div_lt_iff_lt_mul (by decide), ← Nat.pow_succ]
            exact this
          rw [hg, BitVec.ofNat_toNat, BitVec.setWidth_eq, List.cons_append]

/-- Where a continuation after a history entry answers, the bytes are those of an entry and the rest. -/
theorem withEntry_ok {α : Type} {k : Int → List Byte → Except DecodeError α} {bs : List Byte} {a : α}
    (h : withEntry k bs = .ok a) : ∃ v rest, bs = bytesOfEntry v ++ rest ∧ k v rest = .ok a := by
  unfold withEntry at h
  split at h
  · rename_i n rest ht
    exact ⟨entryOfNat n, rest, by simpa [bytesOfEntry] using takeNat_ok bs rest n ht, h⟩
  · cases h

/-- Where a continuation after a history answers, the bytes are those of a history and the rest. -/
theorem withHistory_ok {α : Type} {k : IirHistory → List Byte → Except DecodeError α} {bs : List Byte} {a : α}
    (h : withHistory k bs = .ok a) : ∃ g rest, bs = bytesOfHistory g ++ rest ∧ k g rest = .ok a := by
  unfold withHistory at h
  obtain ⟨x1, r1, rfl, h1⟩ := withEntry_ok h
  obtain ⟨x2, r2, rfl, h2⟩ := withEntry_ok h1
  obtain ⟨x3, r3, rfl, h3⟩ := withEntry_ok h2
  obtain ⟨x4, r4, rfl, h4⟩ := withEntry_ok h3
  obtain ⟨y1, r5, rfl, h5⟩ := withEntry_ok h4
  obtain ⟨y2, r6, rfl, h6⟩ := withEntry_ok h5
  obtain ⟨y3, r7, rfl, h7⟩ := withEntry_ok h6
  obtain ⟨y4, r8, rfl, h8⟩ := withEntry_ok h7
  exact ⟨⟨x1, x2, x3, x4, y1, y2, y3, y4⟩, r8, by simp [bytesOfHistory, List.append_assoc], h8⟩

end Sys2Proof.Laws
end

