-- ==== Sys2Proof/Laws/Sparse.lean ====
section
/-! SUPPORT. The laws of indexed data: a read after a write, and the canonical form, which every write
keeps. -/

namespace Sys2Proof.Laws

open Sys2Proof Sys2Proof.Machine

variable {α : Type}

theorem sparseRead_insert (d : α) (m : Sparse α) (i j : Nat) (v : α) :
    sparseRead d (sparseInsert m i v) j = if i = j then v else sparseRead d m j := by
  induction m with
  | nil => rfl
  | cons p r ih =>
    obtain ⟨k, w⟩ := p
    simp only [sparseInsert]
    split
    · simp only [sparseRead]
    · split
      · subst_vars
        simp only [sparseRead]
        split <;> rfl
      · simp only [sparseRead, ih]
        split <;> split <;> simp_all

theorem sparseRead_erase (d : α) (m : Sparse α) (i j : Nat) :
    sparseRead d (sparseErase m i) j = if i = j then d else sparseRead d m j := by
  induction m with
  | nil => simp [sparseErase, sparseRead]
  | cons p r ih =>
    obtain ⟨k, w⟩ := p
    simp only [sparseErase]
    split
    · subst_vars
      rw [ih]
      simp only [sparseRead]
      split <;> rfl
    · simp only [sparseRead, ih]
      split <;> split <;> simp_all

/-- A read after a write: the value written there, what was there before elsewhere. -/
theorem sparseRead_write [DecidableEq α] (d : α) (m : Sparse α) (i j : Nat) (v : α) :
    sparseRead d (sparseWrite d m i v) j = if i = j then v else sparseRead d m j := by
  unfold sparseWrite
  split
  · subst_vars
    exact sparseRead_erase v m i j
  · exact sparseRead_insert d m i j v

@[simp] theorem sparseRead_write_same [DecidableEq α] (d : α) (m : Sparse α) (i : Nat) (v : α) :
    sparseRead d (sparseWrite d m i v) i = v := by
  simp [sparseRead_write]

theorem sparseRead_write_other [DecidableEq α] (d : α) (m : Sparse α) {i j : Nat} (v : α) (h : i ≠ j) :
    sparseRead d (sparseWrite d m i v) j = sparseRead d m j := by
  simp [sparseRead_write, h]

theorem sparseWfFrom_mono [DecidableEq α] (d : α) {m : Sparse α} {lo lo' : Nat} (h : lo' ≤ lo)
    (hm : sparseWfFrom d lo m = true) : sparseWfFrom d lo' m = true := by
  cases m with
  | nil => rfl
  | cons p r =>
    simp only [sparseWfFrom, Bool.and_eq_true, decide_eq_true_eq] at *
    exact ⟨⟨by omega, hm.1.2⟩, hm.2⟩

theorem sparseWfFrom_erase [DecidableEq α] (d : α) (m : Sparse α) (i lo : Nat)
    (hm : sparseWfFrom d lo m = true) : sparseWfFrom d lo (sparseErase m i) = true := by
  induction m generalizing lo with
  | nil => rfl
  | cons p r ih =>
    obtain ⟨k, w⟩ := p
    simp only [sparseWfFrom, Bool.and_eq_true, decide_eq_true_eq] at hm
    simp only [sparseErase]
    split
    · exact sparseWfFrom_mono d (by omega) (ih (k + 1) hm.2)
    · simp only [sparseWfFrom, Bool.and_eq_true, decide_eq_true_eq]
      exact ⟨hm.1, ih (k + 1) hm.2⟩

theorem sparseWfFrom_insert [DecidableEq α] (d : α) (m : Sparse α) (i lo : Nat) (v : α) (hv : v ≠ d)
    (hi : lo ≤ i) (hm : sparseWfFrom d lo m = true) : sparseWfFrom d lo (sparseInsert m i v) = true := by
  induction m generalizing lo with
  | nil => simp [sparseInsert, sparseWfFrom, hv, hi]
  | cons p r ih =>
    obtain ⟨k, w⟩ := p
    simp only [sparseWfFrom, Bool.and_eq_true, decide_eq_true_eq] at hm
    simp only [sparseInsert]
    split
    · simp only [sparseWfFrom, Bool.and_eq_true, decide_eq_true_eq]
      exact ⟨⟨hi, hv⟩, ⟨by omega, hm.1.2⟩, hm.2⟩
    · split
      · subst_vars
        simp only [sparseWfFrom, Bool.and_eq_true, decide_eq_true_eq]
        exact ⟨⟨hi, hv⟩, hm.2⟩
      · simp only [sparseWfFrom, Bool.and_eq_true, decide_eq_true_eq]
        exact ⟨hm.1, ih (k + 1) (by omega) hm.2⟩

/-- A write keeps the canonical form. -/
theorem sparseWf_write [DecidableEq α] (d : α) (m : Sparse α) (i : Nat) (v : α)
    (hm : sparseWf d m = true) : sparseWf d (sparseWrite d m i v) = true := by
  unfold sparseWrite
  split
  · exact sparseWfFrom_erase d m i 0 hm
  · exact sparseWfFrom_insert d m i 0 v ‹_› (Nat.zero_le i) hm

theorem sparseBelow_erase (m : Sparse α) (n i : Nat) (hm : sparseBelow n m = true) :
    sparseBelow n (sparseErase m i) = true := by
  induction m with
  | nil => rfl
  | cons p r ih =>
    obtain ⟨k, w⟩ := p
    simp only [sparseBelow, Bool.and_eq_true, decide_eq_true_eq] at hm
    simp only [sparseErase]
    split
    · exact ih hm.2
    · simp [sparseBelow, hm.1, ih hm.2]

theorem sparseBelow_insert (m : Sparse α) (n i : Nat) (v : α) (hi : i < n) (hm : sparseBelow n m = true) :
    sparseBelow n (sparseInsert m i v) = true := by
  induction m with
  | nil => simp [sparseInsert, sparseBelow, hi]
  | cons p r ih =>
    obtain ⟨k, w⟩ := p
    simp only [sparseBelow, Bool.and_eq_true, decide_eq_true_eq] at hm
    simp only [sparseInsert]
    split
    · simp [sparseBelow, hi, hm.1, hm.2]
    · split
      · simp [sparseBelow, hi, hm.2]
      · simp [sparseBelow, hm.1, ih hm.2]

/-- A write below a bound keeps every listed index below it. -/
theorem sparseBelow_write [DecidableEq α] (d : α) (m : Sparse α) (n i : Nat) (v : α) (hi : i < n)
    (hm : sparseBelow n m = true) : sparseBelow n (sparseWrite d m i v) = true := by
  unfold sparseWrite
  split
  · exact sparseBelow_erase m n i hm
  · exact sparseBelow_insert m n i v hi hm

/-! ### The circular buffers -/

/-- The one operation that writes the buffers keeps their canonical form. -/
theorem writeSlot_wf (m i : Nat) (b : Lanes (Sparse Axis)) (v : Lanes Axis) (hi : i < m)
    (hb : Memory.wf m b = true) : Memory.wf m (writeSlot b i v) = true := by
  simp only [Memory.wf, Bool.and_eq_true] at hb
  obtain ⟨⟨⟨⟨⟨hx, hy⟩, hz⟩, bx⟩, by'⟩, bz⟩ := hb
  simp only [Memory.wf, writeSlot, Bool.and_eq_true]
  exact ⟨⟨⟨⟨⟨sparseWf_write 0 _ i _ hx, sparseWf_write 0 _ i _ hy⟩, sparseWf_write 0 _ i _ hz⟩,
    sparseBelow_write 0 _ m i _ hi bx⟩, sparseBelow_write 0 _ m i _ hi by'⟩,
    sparseBelow_write 0 _ m i _ hi bz⟩

/-- The buffers right after reset are in canonical form, whatever the depth. -/
theorem reset_buf_wf (m : Nat) : Memory.wf m State.reset.buf = true := rfl

/-- Slot `i` after a write to slot `i`, and every other slot. -/
theorem readSlot_writeSlot (b : Lanes (Sparse Axis)) (i j : Nat) (v : Lanes Axis) :
    readSlot (writeSlot b i v) j = if i = j then v else readSlot b j := by
  simp only [readSlot, writeSlot, sparseRead_write]
  split <;> rfl

@[simp] theorem readSlot_writeSlot_same (b : Lanes (Sparse Axis)) (i : Nat) (v : Lanes Axis) :
    readSlot (writeSlot b i v) i = v := by
  simp [readSlot_writeSlot]

/-- Every slot of the buffers right after reset reads 0 (R36). -/
@[simp] theorem readSlot_reset (i : Nat) : readSlot (State.reset).buf i = lanesOf 0 := rfl

end Sys2Proof.Laws
end

