-- ==== Sys2Proof/Laws/State.lean ====
section
/-! SUPPORT. What each update of the state writes and what it leaves, one lemma a field, each true by
`rfl`. -/

namespace Sys2Proof.Laws

open Sys2Proof Sys2Proof.Machine

variable (s : State)

/-! One bus write (R14). -/

@[simp] theorem busWrite_fb (bytes : List Byte) : (busWrite bytes s).fb = s.fb := rfl
@[simp] theorem busWrite_samp (bytes : List Byte) : (busWrite bytes s).samp = s.samp := rfl
@[simp] theorem busWrite_rej (bytes : List Byte) : (busWrite bytes s).rej = s.rej := rfl
@[simp] theorem busWrite_buf (bytes : List Byte) : (busWrite bytes s).buf = s.buf := rfl
@[simp] theorem busWrite_cur (bytes : List Byte) : (busWrite bytes s).cur = s.cur := rfl
@[simp] theorem busWrite_lat (bytes : List Byte) : (busWrite bytes s).lat = s.lat := rfl
@[simp] theorem busWrite_filt (bytes : List Byte) : (busWrite bytes s).filt = s.filt := rfl
@[simp] theorem busWrite_pub (bytes : List Byte) : (busWrite bytes s).pub = s.pub := rfl
@[simp] theorem busWrite_genuine (bytes : List Byte) : (busWrite bytes s).genuine = s.genuine := rfl
@[simp] theorem busWrite_acqEn (bytes : List Byte) : (busWrite bytes s).acqEn = s.acqEn := rfl
@[simp] theorem busWrite_indMode (bytes : List Byte) : (busWrite bytes s).indMode = s.indMode := rfl
@[simp] theorem busWrite_ph (bytes : List Byte) : (busWrite bytes s).ph = s.ph := rfl
@[simp] theorem busWrite_cyc (bytes : List Byte) : (busWrite bytes s).cyc = s.cyc := rfl
@[simp] theorem busWrite_rep (bytes : List Byte) : (busWrite bytes s).rep = s.rep := rfl
@[simp] theorem busWrite_rseq (bytes : List Byte) : (busWrite bytes s).rseq = s.rseq := rfl
@[simp] theorem busWrite_mask (bytes : List Byte) : (busWrite bytes s).mask = s.mask := rfl
@[simp] theorem busWrite_tickPend (bytes : List Byte) : (busWrite bytes s).tickPend = s.tickPend := rfl
@[simp] theorem busWrite_busLog (bytes : List Byte) :
    (busWrite bytes s).busLog = s.busLog ++ [.w bytes] := rfl
@[simp] theorem busWrite_repWritten (bytes : List Byte) :
    (busWrite bytes s).repWritten = s.repWritten := rfl
@[simp] theorem busWrite_rdDone (bytes : List Byte) : (busWrite bytes s).rdDone = s.rdDone := rfl
@[simp] theorem busWrite_rdReq (bytes : List Byte) : (busWrite bytes s).rdReq = s.rdReq := rfl
@[simp] theorem busWrite_cfg (bytes : List Byte) : (busWrite bytes s).cfg = s.cfg := rfl
@[simp] theorem busWrite_sched (bytes : List Byte) : (busWrite bytes s).sched = s.sched := rfl
@[simp] theorem busWrite_freeCtr (bytes : List Byte) : (busWrite bytes s).freeCtr = s.freeCtr := rfl
@[simp] theorem busWrite_iirHist (bytes : List Byte) : (busWrite bytes s).iirHist = s.iirHist := rfl
@[simp] theorem busWrite_iirOut (bytes : List Byte) : (busWrite bytes s).iirOut = s.iirOut := rfl

/-! One bus read into `FB` (R14). -/

@[simp] theorem busReadToFb_fb (d : Frame) : (busReadToFb d s).fb = d := rfl
@[simp] theorem busReadToFb_samp (d : Frame) : (busReadToFb d s).samp = s.samp := rfl
@[simp] theorem busReadToFb_rej (d : Frame) : (busReadToFb d s).rej = s.rej := rfl
@[simp] theorem busReadToFb_buf (d : Frame) : (busReadToFb d s).buf = s.buf := rfl
@[simp] theorem busReadToFb_cur (d : Frame) : (busReadToFb d s).cur = s.cur := rfl
@[simp] theorem busReadToFb_lat (d : Frame) : (busReadToFb d s).lat = s.lat := rfl
@[simp] theorem busReadToFb_filt (d : Frame) : (busReadToFb d s).filt = s.filt := rfl
@[simp] theorem busReadToFb_pub (d : Frame) : (busReadToFb d s).pub = s.pub := rfl
@[simp] theorem busReadToFb_genuine (d : Frame) : (busReadToFb d s).genuine = s.genuine := rfl
@[simp] theorem busReadToFb_acqEn (d : Frame) : (busReadToFb d s).acqEn = s.acqEn := rfl
@[simp] theorem busReadToFb_indMode (d : Frame) : (busReadToFb d s).indMode = s.indMode := rfl
@[simp] theorem busReadToFb_ph (d : Frame) : (busReadToFb d s).ph = s.ph := rfl
@[simp] theorem busReadToFb_cyc (d : Frame) : (busReadToFb d s).cyc = s.cyc := rfl
@[simp] theorem busReadToFb_rep (d : Frame) : (busReadToFb d s).rep = s.rep := rfl
@[simp] theorem busReadToFb_rseq (d : Frame) : (busReadToFb d s).rseq = s.rseq := rfl
@[simp] theorem busReadToFb_mask (d : Frame) : (busReadToFb d s).mask = s.mask := rfl
@[simp] theorem busReadToFb_tickPend (d : Frame) : (busReadToFb d s).tickPend = s.tickPend := rfl
@[simp] theorem busReadToFb_busLog (d : Frame) : (busReadToFb d s).busLog = s.busLog ++ [.r d] := rfl
@[simp] theorem busReadToFb_repWritten (d : Frame) : (busReadToFb d s).repWritten = s.repWritten := rfl
@[simp] theorem busReadToFb_rdDone (d : Frame) : (busReadToFb d s).rdDone = s.rdDone := rfl
@[simp] theorem busReadToFb_rdReq (d : Frame) : (busReadToFb d s).rdReq = s.rdReq := rfl
@[simp] theorem busReadToFb_cfg (d : Frame) : (busReadToFb d s).cfg = s.cfg := rfl
@[simp] theorem busReadToFb_sched (d : Frame) : (busReadToFb d s).sched = s.sched := rfl
@[simp] theorem busReadToFb_freeCtr (d : Frame) : (busReadToFb d s).freeCtr = s.freeCtr := rfl
@[simp] theorem busReadToFb_iirHist (d : Frame) : (busReadToFb d s).iirHist = s.iirHist := rfl
@[simp] theorem busReadToFb_iirOut (d : Frame) : (busReadToFb d s).iirOut = s.iirOut := rfl

/-! Entry to the cycle (R248). -/

@[simp] theorem enterCycle_fb : (enterCycle s).fb = s.fb := rfl
@[simp] theorem enterCycle_samp : (enterCycle s).samp = s.samp := rfl
@[simp] theorem enterCycle_rej : (enterCycle s).rej = s.rej := rfl
@[simp] theorem enterCycle_buf : (enterCycle s).buf = s.buf := rfl
@[simp] theorem enterCycle_cur : (enterCycle s).cur = s.cur := rfl
@[simp] theorem enterCycle_lat : (enterCycle s).lat = s.lat := rfl
@[simp] theorem enterCycle_filt : (enterCycle s).filt = s.filt := rfl
@[simp] theorem enterCycle_pub : (enterCycle s).pub = s.pub := rfl
@[simp] theorem enterCycle_genuine : (enterCycle s).genuine = s.genuine := rfl
@[simp] theorem enterCycle_acqEn : (enterCycle s).acqEn = s.acqEn := rfl
@[simp] theorem enterCycle_indMode : (enterCycle s).indMode = s.indMode := rfl
@[simp] theorem enterCycle_ph : (enterCycle s).ph = s.ph := rfl
@[simp] theorem enterCycle_cyc : (enterCycle s).cyc = s.cyc := rfl
@[simp] theorem enterCycle_rep : (enterCycle s).rep = s.rep := rfl
@[simp] theorem enterCycle_rseq : (enterCycle s).rseq = s.rseq := rfl
@[simp] theorem enterCycle_mask : (enterCycle s).mask = s.mask := rfl
@[simp] theorem enterCycle_tickPend : (enterCycle s).tickPend = false := rfl
@[simp] theorem enterCycle_busLog : (enterCycle s).busLog = s.busLog := rfl
@[simp] theorem enterCycle_repWritten : (enterCycle s).repWritten = s.repWritten := rfl
@[simp] theorem enterCycle_rdDone : (enterCycle s).rdDone = s.rdDone := rfl
@[simp] theorem enterCycle_rdReq : (enterCycle s).rdReq = s.rdReq := rfl
@[simp] theorem enterCycle_cfg : (enterCycle s).cfg = s.cfg := rfl
@[simp] theorem enterCycle_sched : (enterCycle s).sched = s.sched := rfl
@[simp] theorem enterCycle_freeCtr : (enterCycle s).freeCtr = s.freeCtr := rfl
@[simp] theorem enterCycle_iirHist : (enterCycle s).iirHist = s.iirHist := rfl
@[simp] theorem enterCycle_iirOut : (enterCycle s).iirOut = s.iirOut := rfl

/-! Return from the cycle (R250). -/

@[simp] theorem leaveCycle_fb : (leaveCycle s).fb = s.fb := rfl
@[simp] theorem leaveCycle_samp : (leaveCycle s).samp = s.samp := rfl
@[simp] theorem leaveCycle_rej : (leaveCycle s).rej = s.rej := rfl
@[simp] theorem leaveCycle_buf : (leaveCycle s).buf = s.buf := rfl
@[simp] theorem leaveCycle_cur : (leaveCycle s).cur = s.cur := rfl
@[simp] theorem leaveCycle_lat : (leaveCycle s).lat = s.lat := rfl
@[simp] theorem leaveCycle_filt : (leaveCycle s).filt = s.filt := rfl
@[simp] theorem leaveCycle_pub : (leaveCycle s).pub = s.pub := rfl
@[simp] theorem leaveCycle_genuine : (leaveCycle s).genuine = s.genuine := rfl
@[simp] theorem leaveCycle_acqEn : (leaveCycle s).acqEn = s.acqEn := rfl
@[simp] theorem leaveCycle_indMode : (leaveCycle s).indMode = s.indMode := rfl
@[simp] theorem leaveCycle_ph : (leaveCycle s).ph = s.ph := rfl
@[simp] theorem leaveCycle_cyc : (leaveCycle s).cyc = .idle := rfl
@[simp] theorem leaveCycle_rep : (leaveCycle s).rep = s.rep := rfl
@[simp] theorem leaveCycle_rseq : (leaveCycle s).rseq = s.rseq := rfl
@[simp] theorem leaveCycle_mask : (leaveCycle s).mask = s.mask := rfl
@[simp] theorem leaveCycle_tickPend : (leaveCycle s).tickPend = s.tickPend := rfl
@[simp] theorem leaveCycle_busLog : (leaveCycle s).busLog = s.busLog := rfl
@[simp] theorem leaveCycle_repWritten : (leaveCycle s).repWritten = s.repWritten := rfl
@[simp] theorem leaveCycle_rdDone : (leaveCycle s).rdDone = s.rdDone := rfl
@[simp] theorem leaveCycle_rdReq : (leaveCycle s).rdReq = s.rdReq := rfl
@[simp] theorem leaveCycle_cfg : (leaveCycle s).cfg = s.cfg := rfl
@[simp] theorem leaveCycle_sched : (leaveCycle s).sched = s.sched := rfl
@[simp] theorem leaveCycle_freeCtr : (leaveCycle s).freeCtr = s.freeCtr := rfl
@[simp] theorem leaveCycle_iirHist : (leaveCycle s).iirHist = s.iirHist := rfl
@[simp] theorem leaveCycle_iirOut : (leaveCycle s).iirOut = s.iirOut := rfl

/-! `IdentFailure` (R240). -/

@[simp] theorem raiseCondition_identFailure_fb :
    (raiseCondition Condition.identFailure s).fb = s.fb := rfl
@[simp] theorem raiseCondition_identFailure_samp :
    (raiseCondition Condition.identFailure s).samp = s.samp := rfl
@[simp] theorem raiseCondition_identFailure_rej :
    (raiseCondition Condition.identFailure s).rej = s.rej := rfl
@[simp] theorem raiseCondition_identFailure_buf :
    (raiseCondition Condition.identFailure s).buf = s.buf := rfl
@[simp] theorem raiseCondition_identFailure_cur :
    (raiseCondition Condition.identFailure s).cur = s.cur := rfl
@[simp] theorem raiseCondition_identFailure_lat :
    (raiseCondition Condition.identFailure s).lat = s.lat := rfl
@[simp] theorem raiseCondition_identFailure_filt :
    (raiseCondition Condition.identFailure s).filt = s.filt := rfl
@[simp] theorem raiseCondition_identFailure_pub :
    (raiseCondition Condition.identFailure s).pub = s.pub := rfl
@[simp] theorem raiseCondition_identFailure_genuine :
    (raiseCondition Condition.identFailure s).genuine = s.genuine := rfl
@[simp] theorem raiseCondition_identFailure_acqEn :
    (raiseCondition Condition.identFailure s).acqEn = s.acqEn := rfl
@[simp] theorem raiseCondition_identFailure_indMode :
    (raiseCondition Condition.identFailure s).indMode = .fail := rfl
@[simp] theorem raiseCondition_identFailure_ph :
    (raiseCondition Condition.identFailure s).ph = .fail := rfl
@[simp] theorem raiseCondition_identFailure_cyc :
    (raiseCondition Condition.identFailure s).cyc = s.cyc := rfl
@[simp] theorem raiseCondition_identFailure_rep :
    (raiseCondition Condition.identFailure s).rep = s.rep := rfl
@[simp] theorem raiseCondition_identFailure_rseq :
    (raiseCondition Condition.identFailure s).rseq = s.rseq := rfl
@[simp] theorem raiseCondition_identFailure_mask :
    (raiseCondition Condition.identFailure s).mask = s.mask := rfl
@[simp] theorem raiseCondition_identFailure_tickPend :
    (raiseCondition Condition.identFailure s).tickPend = s.tickPend := rfl
@[simp] theorem raiseCondition_identFailure_busLog :
    (raiseCondition Condition.identFailure s).busLog = s.busLog := rfl
@[simp] theorem raiseCondition_identFailure_repWritten :
    (raiseCondition Condition.identFailure s).repWritten = s.repWritten := rfl
@[simp] theorem raiseCondition_identFailure_rdDone :
    (raiseCondition Condition.identFailure s).rdDone = s.rdDone := rfl
@[simp] theorem raiseCondition_identFailure_rdReq :
    (raiseCondition Condition.identFailure s).rdReq = s.rdReq := rfl
@[simp] theorem raiseCondition_identFailure_cfg :
    (raiseCondition Condition.identFailure s).cfg = s.cfg := rfl
@[simp] theorem raiseCondition_identFailure_sched :
    (raiseCondition Condition.identFailure s).sched = s.sched := rfl
@[simp] theorem raiseCondition_identFailure_freeCtr :
    (raiseCondition Condition.identFailure s).freeCtr = s.freeCtr := rfl
@[simp] theorem raiseCondition_identFailure_iirHist :
    (raiseCondition Condition.identFailure s).iirHist = s.iirHist := rfl
@[simp] theorem raiseCondition_identFailure_iirOut :
    (raiseCondition Condition.identFailure s).iirOut = s.iirOut := rfl

/-! `SpikeFrame` (R241). -/

@[simp] theorem raiseCondition_spikeFrame_fb : (raiseCondition Condition.spikeFrame s).fb = s.fb := rfl
@[simp] theorem raiseCondition_spikeFrame_samp :
    (raiseCondition Condition.spikeFrame s).samp = s.samp := rfl
@[simp] theorem raiseCondition_spikeFrame_rej : (raiseCondition Condition.spikeFrame s).rej = true := rfl
@[simp] theorem raiseCondition_spikeFrame_buf :
    (raiseCondition Condition.spikeFrame s).buf = s.buf := rfl
@[simp] theorem raiseCondition_spikeFrame_cur :
    (raiseCondition Condition.spikeFrame s).cur = s.cur := rfl
@[simp] theorem raiseCondition_spikeFrame_lat :
    (raiseCondition Condition.spikeFrame s).lat = s.lat := rfl
@[simp] theorem raiseCondition_spikeFrame_filt :
    (raiseCondition Condition.spikeFrame s).filt = s.filt := rfl
@[simp] theorem raiseCondition_spikeFrame_pub :
    (raiseCondition Condition.spikeFrame s).pub = s.pub := rfl
@[simp] theorem raiseCondition_spikeFrame_genuine :
    (raiseCondition Condition.spikeFrame s).genuine = s.genuine := rfl
@[simp] theorem raiseCondition_spikeFrame_acqEn :
    (raiseCondition Condition.spikeFrame s).acqEn = s.acqEn := rfl
@[simp] theorem raiseCondition_spikeFrame_indMode :
    (raiseCondition Condition.spikeFrame s).indMode = s.indMode := rfl
@[simp] theorem raiseCondition_spikeFrame_ph : (raiseCondition Condition.spikeFrame s).ph = s.ph := rfl
@[simp] theorem raiseCondition_spikeFrame_cyc :
    (raiseCondition Condition.spikeFrame s).cyc = s.cyc := rfl
@[simp] theorem raiseCondition_spikeFrame_rep :
    (raiseCondition Condition.spikeFrame s).rep = s.rep := rfl
@[simp] theorem raiseCondition_spikeFrame_rseq :
    (raiseCondition Condition.spikeFrame s).rseq = s.rseq := rfl
@[simp] theorem raiseCondition_spikeFrame_mask :
    (raiseCondition Condition.spikeFrame s).mask = s.mask := rfl
@[simp] theorem raiseCondition_spikeFrame_tickPend :
    (raiseCondition Condition.spikeFrame s).tickPend = s.tickPend := rfl
@[simp] theorem raiseCondition_spikeFrame_busLog :
    (raiseCondition Condition.spikeFrame s).busLog = s.busLog := rfl
@[simp] theorem raiseCondition_spikeFrame_repWritten :
    (raiseCondition Condition.spikeFrame s).repWritten = s.repWritten := rfl
@[simp] theorem raiseCondition_spikeFrame_rdDone :
    (raiseCondition Condition.spikeFrame s).rdDone = s.rdDone := rfl
@[simp] theorem raiseCondition_spikeFrame_rdReq :
    (raiseCondition Condition.spikeFrame s).rdReq = s.rdReq := rfl
@[simp] theorem raiseCondition_spikeFrame_cfg :
    (raiseCondition Condition.spikeFrame s).cfg = s.cfg := rfl
@[simp] theorem raiseCondition_spikeFrame_sched :
    (raiseCondition Condition.spikeFrame s).sched = s.sched := rfl
@[simp] theorem raiseCondition_spikeFrame_freeCtr :
    (raiseCondition Condition.spikeFrame s).freeCtr = s.freeCtr := rfl
@[simp] theorem raiseCondition_spikeFrame_iirHist :
    (raiseCondition Condition.spikeFrame s).iirHist = s.iirHist := rfl
@[simp] theorem raiseCondition_spikeFrame_iirOut :
    (raiseCondition Condition.spikeFrame s).iirOut = s.iirOut := rfl

/-! A bring-up write (R120). -/

@[simp] theorem bringUpWrite_fb (bytes : List Byte) (n : Phase) :
    (bringUpWrite bytes n s).fb = s.fb := rfl
@[simp] theorem bringUpWrite_samp (bytes : List Byte) (n : Phase) :
    (bringUpWrite bytes n s).samp = s.samp := rfl
@[simp] theorem bringUpWrite_rej (bytes : List Byte) (n : Phase) :
    (bringUpWrite bytes n s).rej = s.rej := rfl
@[simp] theorem bringUpWrite_buf (bytes : List Byte) (n : Phase) :
    (bringUpWrite bytes n s).buf = s.buf := rfl
@[simp] theorem bringUpWrite_cur (bytes : List Byte) (n : Phase) :
    (bringUpWrite bytes n s).cur = s.cur := rfl
@[simp] theorem bringUpWrite_lat (bytes : List Byte) (n : Phase) :
    (bringUpWrite bytes n s).lat = s.lat := rfl
@[simp] theorem bringUpWrite_filt (bytes : List Byte) (n : Phase) :
    (bringUpWrite bytes n s).filt = s.filt := rfl
@[simp] theorem bringUpWrite_pub (bytes : List Byte) (n : Phase) :
    (bringUpWrite bytes n s).pub = s.pub := rfl
@[simp] theorem bringUpWrite_genuine (bytes : List Byte) (n : Phase) :
    (bringUpWrite bytes n s).genuine = s.genuine := rfl
@[simp] theorem bringUpWrite_acqEn (bytes : List Byte) (n : Phase) :
    (bringUpWrite bytes n s).acqEn = s.acqEn := rfl
@[simp] theorem bringUpWrite_indMode (bytes : List Byte) (n : Phase) :
    (bringUpWrite bytes n s).indMode = s.indMode := rfl
@[simp] theorem bringUpWrite_ph (bytes : List Byte) (n : Phase) : (bringUpWrite bytes n s).ph = n := rfl
@[simp] theorem bringUpWrite_cyc (bytes : List Byte) (n : Phase) :
    (bringUpWrite bytes n s).cyc = s.cyc := rfl
@[simp] theorem bringUpWrite_rep (bytes : List Byte) (n : Phase) :
    (bringUpWrite bytes n s).rep = s.rep := rfl
@[simp] theorem bringUpWrite_rseq (bytes : List Byte) (n : Phase) :
    (bringUpWrite bytes n s).rseq = s.rseq := rfl
@[simp] theorem bringUpWrite_mask (bytes : List Byte) (n : Phase) :
    (bringUpWrite bytes n s).mask = s.mask := rfl
@[simp] theorem bringUpWrite_tickPend (bytes : List Byte) (n : Phase) :
    (bringUpWrite bytes n s).tickPend = s.tickPend := rfl
@[simp] theorem bringUpWrite_busLog (bytes : List Byte) (n : Phase) :
    (bringUpWrite bytes n s).busLog = s.busLog ++ [.w bytes] := rfl
@[simp] theorem bringUpWrite_repWritten (bytes : List Byte) (n : Phase) :
    (bringUpWrite bytes n s).repWritten = s.repWritten := rfl
@[simp] theorem bringUpWrite_rdDone (bytes : List Byte) (n : Phase) :
    (bringUpWrite bytes n s).rdDone = s.rdDone := rfl
@[simp] theorem bringUpWrite_rdReq (bytes : List Byte) (n : Phase) :
    (bringUpWrite bytes n s).rdReq = s.rdReq := rfl
@[simp] theorem bringUpWrite_cfg (bytes : List Byte) (n : Phase) :
    (bringUpWrite bytes n s).cfg = s.cfg := rfl
@[simp] theorem bringUpWrite_sched (bytes : List Byte) (n : Phase) :
    (bringUpWrite bytes n s).sched = s.sched := rfl
@[simp] theorem bringUpWrite_freeCtr (bytes : List Byte) (n : Phase) :
    (bringUpWrite bytes n s).freeCtr = s.freeCtr := rfl
@[simp] theorem bringUpWrite_iirHist (bytes : List Byte) (n : Phase) :
    (bringUpWrite bytes n s).iirHist = s.iirHist := rfl
@[simp] theorem bringUpWrite_iirOut (bytes : List Byte) (n : Phase) :
    (bringUpWrite bytes n s).iirOut = s.iirOut := rfl

/-! The identification read (R122). -/

@[simp] theorem bringUpRead_fb (d : Frame) : (bringUpRead d s).fb = d := rfl
@[simp] theorem bringUpRead_samp (d : Frame) : (bringUpRead d s).samp = s.samp := rfl
@[simp] theorem bringUpRead_rej (d : Frame) : (bringUpRead d s).rej = s.rej := rfl
@[simp] theorem bringUpRead_buf (d : Frame) : (bringUpRead d s).buf = s.buf := rfl
@[simp] theorem bringUpRead_cur (d : Frame) : (bringUpRead d s).cur = s.cur := rfl
@[simp] theorem bringUpRead_lat (d : Frame) : (bringUpRead d s).lat = s.lat := rfl
@[simp] theorem bringUpRead_filt (d : Frame) : (bringUpRead d s).filt = s.filt := rfl
@[simp] theorem bringUpRead_pub (d : Frame) : (bringUpRead d s).pub = s.pub := rfl
@[simp] theorem bringUpRead_genuine (d : Frame) : (bringUpRead d s).genuine = s.genuine := rfl
@[simp] theorem bringUpRead_acqEn (d : Frame) : (bringUpRead d s).acqEn = s.acqEn := rfl
@[simp] theorem bringUpRead_indMode (d : Frame) : (bringUpRead d s).indMode = s.indMode := rfl
@[simp] theorem bringUpRead_ph (d : Frame) : (bringUpRead d s).ph = .i3 := rfl
@[simp] theorem bringUpRead_cyc (d : Frame) : (bringUpRead d s).cyc = s.cyc := rfl
@[simp] theorem bringUpRead_rep (d : Frame) : (bringUpRead d s).rep = s.rep := rfl
@[simp] theorem bringUpRead_rseq (d : Frame) : (bringUpRead d s).rseq = s.rseq := rfl
@[simp] theorem bringUpRead_mask (d : Frame) : (bringUpRead d s).mask = s.mask := rfl
@[simp] theorem bringUpRead_tickPend (d : Frame) : (bringUpRead d s).tickPend = s.tickPend := rfl
@[simp] theorem bringUpRead_busLog (d : Frame) : (bringUpRead d s).busLog = s.busLog ++ [.r d] := rfl
@[simp] theorem bringUpRead_repWritten (d : Frame) : (bringUpRead d s).repWritten = s.repWritten := rfl
@[simp] theorem bringUpRead_rdDone (d : Frame) : (bringUpRead d s).rdDone = s.rdDone := rfl
@[simp] theorem bringUpRead_rdReq (d : Frame) : (bringUpRead d s).rdReq = s.rdReq := rfl
@[simp] theorem bringUpRead_cfg (d : Frame) : (bringUpRead d s).cfg = s.cfg := rfl
@[simp] theorem bringUpRead_sched (d : Frame) : (bringUpRead d s).sched = s.sched := rfl
@[simp] theorem bringUpRead_freeCtr (d : Frame) : (bringUpRead d s).freeCtr = s.freeCtr := rfl
@[simp] theorem bringUpRead_iirHist (d : Frame) : (bringUpRead d s).iirHist = s.iirHist := rfl
@[simp] theorem bringUpRead_iirOut (d : Frame) : (bringUpRead d s).iirOut = s.iirOut := rfl

/-! The classification (R123). -/

@[simp] theorem bringUpClass_fb (b : Bool) : (bringUpClass b s).fb = s.fb := rfl
@[simp] theorem bringUpClass_samp (b : Bool) : (bringUpClass b s).samp = s.samp := rfl
@[simp] theorem bringUpClass_rej (b : Bool) : (bringUpClass b s).rej = s.rej := rfl
@[simp] theorem bringUpClass_buf (b : Bool) : (bringUpClass b s).buf = s.buf := rfl
@[simp] theorem bringUpClass_cur (b : Bool) : (bringUpClass b s).cur = s.cur := rfl
@[simp] theorem bringUpClass_lat (b : Bool) : (bringUpClass b s).lat = s.lat := rfl
@[simp] theorem bringUpClass_filt (b : Bool) : (bringUpClass b s).filt = s.filt := rfl
@[simp] theorem bringUpClass_pub (b : Bool) : (bringUpClass b s).pub = s.pub := rfl
@[simp] theorem bringUpClass_genuine (b : Bool) : (bringUpClass b s).genuine = b := rfl
@[simp] theorem bringUpClass_acqEn (b : Bool) : (bringUpClass b s).acqEn = s.acqEn := rfl
@[simp] theorem bringUpClass_indMode (b : Bool) : (bringUpClass b s).indMode = s.indMode := rfl
@[simp] theorem bringUpClass_ph (b : Bool) : (bringUpClass b s).ph = .i4 := rfl
@[simp] theorem bringUpClass_cyc (b : Bool) : (bringUpClass b s).cyc = s.cyc := rfl
@[simp] theorem bringUpClass_rep (b : Bool) : (bringUpClass b s).rep = s.rep := rfl
@[simp] theorem bringUpClass_rseq (b : Bool) : (bringUpClass b s).rseq = s.rseq := rfl
@[simp] theorem bringUpClass_mask (b : Bool) : (bringUpClass b s).mask = s.mask := rfl
@[simp] theorem bringUpClass_tickPend (b : Bool) : (bringUpClass b s).tickPend = s.tickPend := rfl
@[simp] theorem bringUpClass_busLog (b : Bool) : (bringUpClass b s).busLog = s.busLog := rfl
@[simp] theorem bringUpClass_repWritten (b : Bool) : (bringUpClass b s).repWritten = s.repWritten := rfl
@[simp] theorem bringUpClass_rdDone (b : Bool) : (bringUpClass b s).rdDone = s.rdDone := rfl
@[simp] theorem bringUpClass_rdReq (b : Bool) : (bringUpClass b s).rdReq = s.rdReq := rfl
@[simp] theorem bringUpClass_cfg (b : Bool) : (bringUpClass b s).cfg = s.cfg := rfl
@[simp] theorem bringUpClass_sched (b : Bool) : (bringUpClass b s).sched = s.sched := rfl
@[simp] theorem bringUpClass_freeCtr (b : Bool) : (bringUpClass b s).freeCtr = s.freeCtr := rfl
@[simp] theorem bringUpClass_iirHist (b : Bool) : (bringUpClass b s).iirHist = s.iirHist := rfl
@[simp] theorem bringUpClass_iirOut (b : Bool) : (bringUpClass b s).iirOut = s.iirOut := rfl

/-! `C_READ` (R141). -/

@[simp] theorem microRead_fb (d : Frame) : (microRead d s).fb = d := rfl
@[simp] theorem microRead_samp (d : Frame) : (microRead d s).samp = s.samp := rfl
@[simp] theorem microRead_rej (d : Frame) : (microRead d s).rej = s.rej := rfl
@[simp] theorem microRead_buf (d : Frame) : (microRead d s).buf = s.buf := rfl
@[simp] theorem microRead_cur (d : Frame) : (microRead d s).cur = s.cur := rfl
@[simp] theorem microRead_lat (d : Frame) : (microRead d s).lat = s.lat := rfl
@[simp] theorem microRead_filt (d : Frame) : (microRead d s).filt = s.filt := rfl
@[simp] theorem microRead_pub (d : Frame) : (microRead d s).pub = s.pub := rfl
@[simp] theorem microRead_genuine (d : Frame) : (microRead d s).genuine = s.genuine := rfl
@[simp] theorem microRead_acqEn (d : Frame) : (microRead d s).acqEn = s.acqEn := rfl
@[simp] theorem microRead_indMode (d : Frame) : (microRead d s).indMode = s.indMode := rfl
@[simp] theorem microRead_ph (d : Frame) : (microRead d s).ph = s.ph := rfl
@[simp] theorem microRead_cyc (d : Frame) : (microRead d s).cyc = .req := rfl
@[simp] theorem microRead_rep (d : Frame) : (microRead d s).rep = s.rep := rfl
@[simp] theorem microRead_rseq (d : Frame) : (microRead d s).rseq = s.rseq := rfl
@[simp] theorem microRead_mask (d : Frame) : (microRead d s).mask = s.mask := rfl
@[simp] theorem microRead_tickPend (d : Frame) : (microRead d s).tickPend = s.tickPend := rfl
@[simp] theorem microRead_busLog (d : Frame) : (microRead d s).busLog = s.busLog ++ [.r d] := rfl
@[simp] theorem microRead_repWritten (d : Frame) : (microRead d s).repWritten = s.repWritten := rfl
@[simp] theorem microRead_rdDone (d : Frame) : (microRead d s).rdDone = s.rdDone := rfl
@[simp] theorem microRead_rdReq (d : Frame) : (microRead d s).rdReq = s.rdReq := rfl
@[simp] theorem microRead_cfg (d : Frame) : (microRead d s).cfg = s.cfg := rfl
@[simp] theorem microRead_sched (d : Frame) : (microRead d s).sched = s.sched := rfl
@[simp] theorem microRead_freeCtr (d : Frame) : (microRead d s).freeCtr = s.freeCtr := rfl
@[simp] theorem microRead_iirHist (d : Frame) : (microRead d s).iirHist = s.iirHist := rfl
@[simp] theorem microRead_iirOut (d : Frame) : (microRead d s).iirOut = s.iirOut := rfl

/-! `C_REQ` (R142). -/

@[simp] theorem microReq_fb : (microReq s).fb = s.fb := rfl
@[simp] theorem microReq_samp : (microReq s).samp = s.samp := rfl
@[simp] theorem microReq_rej : (microReq s).rej = s.rej := rfl
@[simp] theorem microReq_buf : (microReq s).buf = s.buf := rfl
@[simp] theorem microReq_cur : (microReq s).cur = s.cur := rfl
@[simp] theorem microReq_lat : (microReq s).lat = s.lat := rfl
@[simp] theorem microReq_filt : (microReq s).filt = s.filt := rfl
@[simp] theorem microReq_pub : (microReq s).pub = s.pub := rfl
@[simp] theorem microReq_genuine : (microReq s).genuine = s.genuine := rfl
@[simp] theorem microReq_acqEn : (microReq s).acqEn = s.acqEn := rfl
@[simp] theorem microReq_indMode : (microReq s).indMode = s.indMode := rfl
@[simp] theorem microReq_ph : (microReq s).ph = s.ph := rfl
@[simp] theorem microReq_cyc : (microReq s).cyc = .valid := rfl
@[simp] theorem microReq_rep : (microReq s).rep = s.rep := rfl
@[simp] theorem microReq_rseq : (microReq s).rseq = s.rseq := rfl
@[simp] theorem microReq_mask : (microReq s).mask = s.mask := rfl
@[simp] theorem microReq_tickPend : (microReq s).tickPend = s.tickPend := rfl
@[simp] theorem microReq_busLog : (microReq s).busLog = s.busLog ++ [.w [0x00]] := rfl
@[simp] theorem microReq_repWritten : (microReq s).repWritten = s.repWritten := rfl
@[simp] theorem microReq_rdDone : (microReq s).rdDone = s.rdDone := rfl
@[simp] theorem microReq_rdReq : (microReq s).rdReq = s.rdReq := rfl
@[simp] theorem microReq_cfg : (microReq s).cfg = s.cfg := rfl
@[simp] theorem microReq_sched : (microReq s).sched = s.sched := rfl
@[simp] theorem microReq_freeCtr : (microReq s).freeCtr = s.freeCtr := rfl
@[simp] theorem microReq_iirHist : (microReq s).iirHist = s.iirHist := rfl
@[simp] theorem microReq_iirOut : (microReq s).iirOut = s.iirOut := rfl

/-! `C_UNPACK` (R160). -/

@[simp] theorem microUnpack_fb : (microUnpack s).fb = s.fb := rfl
@[simp] theorem microUnpack_samp : (microUnpack s).samp = unpackFrame s.fb := rfl
@[simp] theorem microUnpack_rej : (microUnpack s).rej = s.rej := rfl
@[simp] theorem microUnpack_buf : (microUnpack s).buf = s.buf := rfl
@[simp] theorem microUnpack_cur : (microUnpack s).cur = s.cur := rfl
@[simp] theorem microUnpack_lat : (microUnpack s).lat = s.lat := rfl
@[simp] theorem microUnpack_filt : (microUnpack s).filt = s.filt := rfl
@[simp] theorem microUnpack_pub : (microUnpack s).pub = s.pub := rfl
@[simp] theorem microUnpack_genuine : (microUnpack s).genuine = s.genuine := rfl
@[simp] theorem microUnpack_acqEn : (microUnpack s).acqEn = s.acqEn := rfl
@[simp] theorem microUnpack_indMode : (microUnpack s).indMode = s.indMode := rfl
@[simp] theorem microUnpack_ph : (microUnpack s).ph = s.ph := rfl
@[simp] theorem microUnpack_cyc : (microUnpack s).cyc = .store := rfl
@[simp] theorem microUnpack_rep : (microUnpack s).rep = s.rep := rfl
@[simp] theorem microUnpack_rseq : (microUnpack s).rseq = s.rseq := rfl
@[simp] theorem microUnpack_mask : (microUnpack s).mask = s.mask := rfl
@[simp] theorem microUnpack_tickPend : (microUnpack s).tickPend = s.tickPend := rfl
@[simp] theorem microUnpack_busLog : (microUnpack s).busLog = s.busLog := rfl
@[simp] theorem microUnpack_repWritten : (microUnpack s).repWritten = s.repWritten := rfl
@[simp] theorem microUnpack_rdDone : (microUnpack s).rdDone = s.rdDone := rfl
@[simp] theorem microUnpack_rdReq : (microUnpack s).rdReq = s.rdReq := rfl
@[simp] theorem microUnpack_cfg : (microUnpack s).cfg = s.cfg := rfl
@[simp] theorem microUnpack_sched : (microUnpack s).sched = s.sched := rfl
@[simp] theorem microUnpack_freeCtr : (microUnpack s).freeCtr = s.freeCtr := rfl
@[simp] theorem microUnpack_iirHist : (microUnpack s).iirHist = s.iirHist := rfl
@[simp] theorem microUnpack_iirOut : (microUnpack s).iirOut = s.iirOut := rfl

/-! `C_CARRY` (R145). -/

@[simp] theorem microCarry_fb : (microCarry s).fb = s.fb := rfl
@[simp] theorem microCarry_samp : (microCarry s).samp = carriedSample s := rfl
@[simp] theorem microCarry_rej : (microCarry s).rej = s.rej := rfl
@[simp] theorem microCarry_buf : (microCarry s).buf = s.buf := rfl
@[simp] theorem microCarry_cur : (microCarry s).cur = s.cur := rfl
@[simp] theorem microCarry_lat : (microCarry s).lat = s.lat := rfl
@[simp] theorem microCarry_filt : (microCarry s).filt = s.filt := rfl
@[simp] theorem microCarry_pub : (microCarry s).pub = s.pub := rfl
@[simp] theorem microCarry_genuine : (microCarry s).genuine = s.genuine := rfl
@[simp] theorem microCarry_acqEn : (microCarry s).acqEn = s.acqEn := rfl
@[simp] theorem microCarry_indMode : (microCarry s).indMode = s.indMode := rfl
@[simp] theorem microCarry_ph : (microCarry s).ph = s.ph := rfl
@[simp] theorem microCarry_cyc : (microCarry s).cyc = .store := rfl
@[simp] theorem microCarry_rep : (microCarry s).rep = s.rep := rfl
@[simp] theorem microCarry_rseq : (microCarry s).rseq = s.rseq := rfl
@[simp] theorem microCarry_mask : (microCarry s).mask = s.mask := rfl
@[simp] theorem microCarry_tickPend : (microCarry s).tickPend = s.tickPend := rfl
@[simp] theorem microCarry_busLog : (microCarry s).busLog = s.busLog := rfl
@[simp] theorem microCarry_repWritten : (microCarry s).repWritten = s.repWritten := rfl
@[simp] theorem microCarry_rdDone : (microCarry s).rdDone = s.rdDone := rfl
@[simp] theorem microCarry_rdReq : (microCarry s).rdReq = s.rdReq := rfl
@[simp] theorem microCarry_cfg : (microCarry s).cfg = s.cfg := rfl
@[simp] theorem microCarry_sched : (microCarry s).sched = s.sched := rfl
@[simp] theorem microCarry_freeCtr : (microCarry s).freeCtr = s.freeCtr := rfl
@[simp] theorem microCarry_iirHist : (microCarry s).iirHist = s.iirHist := rfl
@[simp] theorem microCarry_iirOut : (microCarry s).iirOut = s.iirOut := rfl

/-! `C_AVG` (R173, R174). -/

@[simp] theorem microAvg_fb : (microAvg s).fb = s.fb := rfl
@[simp] theorem microAvg_samp : (microAvg s).samp = s.samp := rfl
@[simp] theorem microAvg_rej : (microAvg s).rej = s.rej := rfl
@[simp] theorem microAvg_buf : (microAvg s).buf = s.buf := rfl
@[simp] theorem microAvg_cur : (microAvg s).cur = s.cur := rfl
@[simp] theorem microAvg_lat : (microAvg s).lat = s.lat := rfl
@[simp] theorem microAvg_filt :
    (microAvg s).filt = ⟨average s.cfg.policy s.buf.x, average s.cfg.policy s.buf.y, average s.cfg.policy s.buf.z⟩ := rfl
@[simp] theorem microAvg_pub : (microAvg s).pub = s.pub := rfl
@[simp] theorem microAvg_genuine : (microAvg s).genuine = s.genuine := rfl
@[simp] theorem microAvg_acqEn : (microAvg s).acqEn = s.acqEn := rfl
@[simp] theorem microAvg_indMode : (microAvg s).indMode = s.indMode := rfl
@[simp] theorem microAvg_ph : (microAvg s).ph = s.ph := rfl
@[simp] theorem microAvg_cyc : (microAvg s).cyc = .pub := rfl
@[simp] theorem microAvg_rep : (microAvg s).rep = s.rep := rfl
@[simp] theorem microAvg_rseq : (microAvg s).rseq = s.rseq := rfl
@[simp] theorem microAvg_mask : (microAvg s).mask = s.mask := rfl
@[simp] theorem microAvg_tickPend : (microAvg s).tickPend = s.tickPend := rfl
@[simp] theorem microAvg_busLog : (microAvg s).busLog = s.busLog := rfl
@[simp] theorem microAvg_repWritten : (microAvg s).repWritten = s.repWritten := rfl
@[simp] theorem microAvg_rdDone : (microAvg s).rdDone = s.rdDone := rfl
@[simp] theorem microAvg_rdReq : (microAvg s).rdReq = s.rdReq := rfl
@[simp] theorem microAvg_cfg : (microAvg s).cfg = s.cfg := rfl
@[simp] theorem microAvg_sched : (microAvg s).sched = s.sched := rfl
@[simp] theorem microAvg_freeCtr : (microAvg s).freeCtr = s.freeCtr := rfl
@[simp] theorem microAvg_iirHist : (microAvg s).iirHist = s.iirHist := rfl
@[simp] theorem microAvg_iirOut : (microAvg s).iirOut = s.iirOut := rfl

/-! `C_PASS` (R176). -/

@[simp] theorem microPass_fb : (microPass s).fb = s.fb := rfl
@[simp] theorem microPass_samp : (microPass s).samp = s.samp := rfl
@[simp] theorem microPass_rej : (microPass s).rej = s.rej := rfl
@[simp] theorem microPass_buf : (microPass s).buf = s.buf := rfl
@[simp] theorem microPass_cur : (microPass s).cur = s.cur := rfl
@[simp] theorem microPass_lat : (microPass s).lat = s.lat := rfl
@[simp] theorem microPass_filt : (microPass s).filt = s.samp := rfl
@[simp] theorem microPass_pub : (microPass s).pub = s.pub := rfl
@[simp] theorem microPass_genuine : (microPass s).genuine = s.genuine := rfl
@[simp] theorem microPass_acqEn : (microPass s).acqEn = s.acqEn := rfl
@[simp] theorem microPass_indMode : (microPass s).indMode = s.indMode := rfl
@[simp] theorem microPass_ph : (microPass s).ph = s.ph := rfl
@[simp] theorem microPass_cyc : (microPass s).cyc = .pub := rfl
@[simp] theorem microPass_rep : (microPass s).rep = s.rep := rfl
@[simp] theorem microPass_rseq : (microPass s).rseq = s.rseq := rfl
@[simp] theorem microPass_mask : (microPass s).mask = s.mask := rfl
@[simp] theorem microPass_tickPend : (microPass s).tickPend = s.tickPend := rfl
@[simp] theorem microPass_busLog : (microPass s).busLog = s.busLog := rfl
@[simp] theorem microPass_repWritten : (microPass s).repWritten = s.repWritten := rfl
@[simp] theorem microPass_rdDone : (microPass s).rdDone = s.rdDone := rfl
@[simp] theorem microPass_rdReq : (microPass s).rdReq = s.rdReq := rfl
@[simp] theorem microPass_cfg : (microPass s).cfg = s.cfg := rfl
@[simp] theorem microPass_sched : (microPass s).sched = s.sched := rfl
@[simp] theorem microPass_freeCtr : (microPass s).freeCtr = s.freeCtr := rfl
@[simp] theorem microPass_iirHist : (microPass s).iirHist = s.iirHist := rfl
@[simp] theorem microPass_iirOut : (microPass s).iirOut = s.iirOut := rfl

/-! `C_PUB` (R210). -/

@[simp] theorem microPub_fb : (microPub s).fb = s.fb := rfl
@[simp] theorem microPub_samp : (microPub s).samp = s.samp := rfl
@[simp] theorem microPub_rej : (microPub s).rej = s.rej := rfl
@[simp] theorem microPub_buf : (microPub s).buf = s.buf := rfl
@[simp] theorem microPub_cur : (microPub s).cur = s.cur := rfl
@[simp] theorem microPub_lat : (microPub s).lat = s.lat := rfl
@[simp] theorem microPub_filt : (microPub s).filt = s.filt := rfl
@[simp] theorem microPub_pub :
    (microPub s).pub = ⟨publishedField s.filt.x, publishedField s.filt.y, publishedField s.filt.z⟩ := rfl
@[simp] theorem microPub_genuine : (microPub s).genuine = s.genuine := rfl
@[simp] theorem microPub_acqEn : (microPub s).acqEn = s.acqEn := rfl
@[simp] theorem microPub_indMode : (microPub s).indMode = s.indMode := rfl
@[simp] theorem microPub_ph : (microPub s).ph = s.ph := rfl
@[simp] theorem microPub_cyc : (microPub s).cyc = .idle := rfl
@[simp] theorem microPub_rep : (microPub s).rep = s.rep := rfl
@[simp] theorem microPub_rseq : (microPub s).rseq = s.rseq := rfl
@[simp] theorem microPub_mask : (microPub s).mask = s.mask := rfl
@[simp] theorem microPub_tickPend : (microPub s).tickPend = s.tickPend := rfl
@[simp] theorem microPub_busLog : (microPub s).busLog = s.busLog := rfl
@[simp] theorem microPub_repWritten : (microPub s).repWritten = s.repWritten := rfl
@[simp] theorem microPub_rdDone : (microPub s).rdDone = s.rdDone := rfl
@[simp] theorem microPub_rdReq : (microPub s).rdReq = s.rdReq := rfl
@[simp] theorem microPub_cfg : (microPub s).cfg = s.cfg := rfl
@[simp] theorem microPub_sched : (microPub s).sched = s.sched := rfl
@[simp] theorem microPub_freeCtr : (microPub s).freeCtr = s.freeCtr := rfl
@[simp] theorem microPub_iirHist : (microPub s).iirHist = s.iirHist := rfl
@[simp] theorem microPub_iirOut : (microPub s).iirOut = s.iirOut := rfl

/-! A request (R228). -/

@[simp] theorem raiseRdReq_fb : (raiseRdReq s).fb = s.fb := rfl
@[simp] theorem raiseRdReq_samp : (raiseRdReq s).samp = s.samp := rfl
@[simp] theorem raiseRdReq_rej : (raiseRdReq s).rej = s.rej := rfl
@[simp] theorem raiseRdReq_buf : (raiseRdReq s).buf = s.buf := rfl
@[simp] theorem raiseRdReq_cur : (raiseRdReq s).cur = s.cur := rfl
@[simp] theorem raiseRdReq_lat : (raiseRdReq s).lat = s.lat := rfl
@[simp] theorem raiseRdReq_filt : (raiseRdReq s).filt = s.filt := rfl
@[simp] theorem raiseRdReq_pub : (raiseRdReq s).pub = s.pub := rfl
@[simp] theorem raiseRdReq_genuine : (raiseRdReq s).genuine = s.genuine := rfl
@[simp] theorem raiseRdReq_acqEn : (raiseRdReq s).acqEn = s.acqEn := rfl
@[simp] theorem raiseRdReq_indMode : (raiseRdReq s).indMode = s.indMode := rfl
@[simp] theorem raiseRdReq_ph : (raiseRdReq s).ph = s.ph := rfl
@[simp] theorem raiseRdReq_cyc : (raiseRdReq s).cyc = s.cyc := rfl
@[simp] theorem raiseRdReq_rep : (raiseRdReq s).rep = s.rep := rfl
@[simp] theorem raiseRdReq_rseq : (raiseRdReq s).rseq = s.rseq := rfl
@[simp] theorem raiseRdReq_mask : (raiseRdReq s).mask = s.mask := rfl
@[simp] theorem raiseRdReq_tickPend : (raiseRdReq s).tickPend = s.tickPend := rfl
@[simp] theorem raiseRdReq_busLog : (raiseRdReq s).busLog = s.busLog := rfl
@[simp] theorem raiseRdReq_repWritten : (raiseRdReq s).repWritten = s.repWritten := rfl
@[simp] theorem raiseRdReq_rdDone : (raiseRdReq s).rdDone = (s.rdDone && s.ph == .fail) := rfl
@[simp] theorem raiseRdReq_rdReq : (raiseRdReq s).rdReq = (s.rdReq || s.ph != .fail) := rfl
@[simp] theorem raiseRdReq_cfg : (raiseRdReq s).cfg = s.cfg := rfl
@[simp] theorem raiseRdReq_sched : (raiseRdReq s).sched = s.sched := rfl
@[simp] theorem raiseRdReq_freeCtr : (raiseRdReq s).freeCtr = s.freeCtr := rfl
@[simp] theorem raiseRdReq_iirHist : (raiseRdReq s).iirHist = s.iirHist := rfl
@[simp] theorem raiseRdReq_iirOut : (raiseRdReq s).iirOut = s.iirOut := rfl

/-! Reset (R280). -/

@[simp] theorem resetState_fb : (resetState s).fb = ⟨0, 0, 0, 0, 0, 0⟩ := rfl
@[simp] theorem resetState_samp : (resetState s).samp = lanesOf 0 := rfl
@[simp] theorem resetState_rej : (resetState s).rej = false := rfl
@[simp] theorem resetState_buf : (resetState s).buf = lanesOf [] := rfl
@[simp] theorem resetState_cur : (resetState s).cur = 0 := rfl
@[simp] theorem resetState_lat : (resetState s).lat = lanesOf 0 := rfl
@[simp] theorem resetState_filt : (resetState s).filt = lanesOf 0 := rfl
@[simp] theorem resetState_pub : (resetState s).pub = lanesOf 0 := rfl
@[simp] theorem resetState_genuine : (resetState s).genuine = false := rfl
@[simp] theorem resetState_acqEn : (resetState s).acqEn = false := rfl
@[simp] theorem resetState_indMode : (resetState s).indMode = .off := rfl
@[simp] theorem resetState_ph : (resetState s).ph = .boot := rfl
@[simp] theorem resetState_cyc : (resetState s).cyc = .idle := rfl
@[simp] theorem resetState_rep : (resetState s).rep = lanesOf 0 := rfl
@[simp] theorem resetState_rseq : (resetState s).rseq = .idle := rfl
@[simp] theorem resetState_mask : (resetState s).mask = false := rfl
@[simp] theorem resetState_tickPend : (resetState s).tickPend = false := rfl
@[simp] theorem resetState_busLog : (resetState s).busLog = [] := rfl
@[simp] theorem resetState_repWritten : (resetState s).repWritten = false := rfl
@[simp] theorem resetState_rdDone : (resetState s).rdDone = false := rfl
@[simp] theorem resetState_rdReq : (resetState s).rdReq = s.rdReq := rfl
@[simp] theorem resetState_cfg : (resetState s).cfg = s.cfg := rfl
@[simp] theorem resetState_sched : (resetState s).sched = s.sched := rfl
@[simp] theorem resetState_freeCtr : (resetState s).freeCtr = s.freeCtr := rfl
@[simp] theorem resetState_iirHist : (resetState s).iirHist = s.iirHist := rfl
@[simp] theorem resetState_iirOut : (resetState s).iirOut = s.iirOut := rfl

end Sys2Proof.Laws
end

