-- ==== Sys2Proof/Laws/Ops.lean ====
section
/-! SUPPORT. What each shared operation can do, said once: the guarded event, the policy-dependent
micro-operations, the cycle, the fetch and the step. -/

namespace Sys2Proof.Laws

open Sys2Proof Sys2Proof.Machine

/-! ### Outcomes -/

/-- A guarded event answers a next state exactly where its guard holds, and then that state. -/
theorem whenEnabled_next {g : Bool} {why : Guard} {t u : State} :
    whenEnabled g why t = .next u ↔ g = true ∧ u = t := by
  unfold whenEnabled
  cases g <;> simp [eq_comm]

/-- A guarded event never faults. -/
theorem whenEnabled_not_fault {g : Bool} {why : Guard} {t : State} {r : Fault} :
    whenEnabled g why t ≠ .fault r := by
  unfold whenEnabled
  cases g <;> simp

@[simp] theorem nextOf_next (t : State) : nextOf (.next t) = some t := rfl

theorem nextOf_eq_some {o : Host.Outcome State Fault Refusal} {t : State} :
    nextOf o = some t ↔ o = .next t := by
  cases o <;> simp [nextOf]

@[simp] theorem runOps_nil (s : State) : runOps [] s = some s := rfl

theorem runOps_cons (i : Instr) (is : List Instr) (s : State) :
    runOps (i :: is) s = (nextOf (exec i s)).bind (runOps is) := by
  simp only [runOps]
  cases exec i s <;> rfl

theorem runOps_cons_some {i : Instr} {is : List Instr} {s u : State} :
    runOps (i :: is) s = some u ↔ ∃ t, exec i s = .next t ∧ runOps is t = some u := by
  rw [runOps_cons]
  cases exec i s <;> simp [nextOf]

theorem runOps_append (is js : List Instr) (s : State) :
    runOps (is ++ js) s = (runOps is s).bind (runOps js) := by
  induction is generalizing s with
  | nil => rfl
  | cons i is ih =>
    simp only [List.cons_append, runOps]
    cases exec i s <;> simp [ih]

/-! ### Delays -/

@[simp] theorem settle_eq (s : State) : settle s = s := rfl

@[simp] theorem gap_eq (s : State) : gap s = s := rfl

/-! ### The micro-operations that depend on a flag or on the policy -/

/-- `C_VALID` with a verdict writes `REJ` and moves on; nothing else. -/
theorem microValid_eq (b : Bool) (s : State) : microValid b s = { s with rej := b, cyc := .fill } := by
  cases b <;> rfl

theorem carriedSample_ma {s : State} {k : Nat} (h : s.cfg.policy = .ma k) :
    carriedSample s = readSlot s.buf (prevSlot (.ma k) s.cur) := by
  simp only [carriedSample, h]

theorem carriedSample_pt {s : State} (h : s.cfg.policy = .pt) : carriedSample s = s.lat := by
  simp only [carriedSample, h]

/-- `C_STORE` under `MA`: slot `CUR` of each buffer and the cursor. -/
theorem microStore_ma {s : State} {k : Nat} (h : s.cfg.policy = .ma k) :
    microStore s =
      { s with buf := writeSlot s.buf s.cur s.samp, cur := nextSlot (.ma k) s.cur, cyc := .filter } := by
  simp only [microStore, h]

/-- `C_STORE` under `PT`: the latest-sample slot. -/
theorem microStore_pt {s : State} (h : s.cfg.policy = .pt) :
    microStore s = { s with lat := s.samp, cyc := .filter } := by
  simp only [microStore, h]

theorem microFilter_ma {s : State} {k : Nat} (h : s.cfg.policy = .ma k) : microFilter s = microAvg s := by
  simp only [microFilter, h]

theorem microFilter_pt {s : State} (h : s.cfg.policy = .pt) : microFilter s = microPass s := by
  simp only [microFilter, h]

theorem microFill_eq (s : State) :
    microFill s = { s with samp := if s.rej then carriedSample s else unpackFrame s.fb, cyc := .store } := by
  unfold microFill
  cases h : s.rej <;> simp [h, microCarry, microUnpack]

/-- The store leaves every register but the filter state and the position. -/
theorem microStore_frame (s : State) :
    microStore s = { s with buf := (microStore s).buf, cur := (microStore s).cur, lat := (microStore s).lat,
                            cyc := .filter } := by
  unfold microStore
  split <;> rfl

/-- The filter writes its results and moves on; nothing else. -/
theorem microFilter_frame (s : State) :
    microFilter s = { s with filt := (microFilter s).filt, cyc := .pub } := by
  unfold microFilter
  split <;> rfl

/-- The next slot index is a slot index. -/
theorem nextSlot_lt (p : Policy) (i : Nat) : nextSlot p i < depth p :=
  Nat.mod_lt _ (Nat.two_pow_pos _)

/-- The index before a slot is a slot index. -/
theorem prevSlot_lt (p : Policy) (i : Nat) : prevSlot p i < depth p :=
  Nat.mod_lt _ (Nat.two_pow_pos _)

/-! ### The cycle -/

/-- The body of a cycle leaves every register that is not the producer's run-time state. -/
theorem cycleBody_frame (d : Frame) (s : State) :
    cycleBody d s =
      { s with
        fb := d, tickPend := false, cyc := .idle, busLog := s.busLog ++ [.r d] ++ [.w [0x00]],
        rej := isSpike d,
        samp := (cycleBody d s).samp, buf := (cycleBody d s).buf, cur := (cycleBody d s).cur,
        lat := (cycleBody d s).lat, filt := (cycleBody d s).filt, pub := (cycleBody d s).pub } := by
  unfold cycleBody
  simp only [microValid_eq, microFill_eq]
  rw [microFilter_frame, microStore_frame]
  rfl

/-- The sample of a cycle on a frame (R145, R160). -/
theorem cycleBody_samp (d : Frame) (s : State) :
    (cycleBody d s).samp = if isSpike d then carriedSample s else unpackFrame d := by
  unfold cycleBody microFilter microStore microFill
  simp only [microValid_eq]
  cases h : isSpike d <;> cases hp : s.cfg.policy <;> simp [h, hp, carriedSample, leaveCycle, microPub]

/-- What a cycle does under `MA`, given the sample it ends up with. -/
theorem cycleBody_ma {d : Frame} {s : State} {k : Nat} (h : s.cfg.policy = .ma k) :
    (cycleBody d s).buf = writeSlot s.buf s.cur (cycleBody d s).samp ∧
    (cycleBody d s).cur = nextSlot (.ma k) s.cur ∧ (cycleBody d s).lat = s.lat ∧
    (cycleBody d s).filt = ⟨average (.ma k) (cycleBody d s).buf.x, average (.ma k) (cycleBody d s).buf.y,
      average (.ma k) (cycleBody d s).buf.z⟩ ∧
    (cycleBody d s).pub = ⟨publishedField (cycleBody d s).filt.x, publishedField (cycleBody d s).filt.y,
      publishedField (cycleBody d s).filt.z⟩ := by
  unfold cycleBody microFilter microStore microFill
  simp only [microValid_eq]
  cases hs : isSpike d <;> simp [h, hs]

/-- What a cycle does under `PT`, given the sample it ends up with. -/
theorem cycleBody_pt {d : Frame} {s : State} (h : s.cfg.policy = .pt) :
    (cycleBody d s).buf = s.buf ∧ (cycleBody d s).cur = s.cur ∧
    (cycleBody d s).lat = (cycleBody d s).samp ∧ (cycleBody d s).filt = (cycleBody d s).samp ∧
    (cycleBody d s).pub = ⟨publishedField (cycleBody d s).samp.x, publishedField (cycleBody d s).samp.y,
      publishedField (cycleBody d s).samp.z⟩ := by
  unfold cycleBody microFilter microStore microFill
  simp only [microValid_eq]
  cases hs : isSpike d <;> simp [h, hs]

/-! ### The IIR transform -/

/-- `IIR_W` bits hold a value that fits them. -/
theorem heldEntry_of_fits {w : Nat} {v : Int} (h : fitsBits w v = true) : heldEntry w v = v := by
  simp [heldEntry, h]

/-- What `IIR_W` bits hold fits them, whatever the free value is. -/
@[simp] theorem fitsBits_heldEntry (w : Nat) (v : Int) : fitsBits w (heldEntry w v) = true := by
  unfold heldEntry
  split
  · assumption
  · have hp : 0 < 2 ^ w := Nat.two_pow_pos w
    have hl := Int.le_bmod (x := Config.iirOpenEntry w v) hp
    have hu := Int.bmod_lt (x := Config.iirOpenEntry w v) hp
    simp only [fitsBits, decide_eq_true_eq]
    push_cast at hl hu ⊢
    omega

@[simp] theorem historyFits_heldHistory (w : Nat) (h : IirHistory) : historyFits w (heldHistory w h) = true := by
  simp [historyFits, heldHistory]

/-- A history that fits `IIR_W` bits is held as it is. -/
theorem heldHistory_of_fits {w : Nat} {h : IirHistory} (hf : historyFits w h = true) : heldHistory w h = h := by
  simp only [historyFits, Bool.and_eq_true] at hf
  obtain ⟨⟨⟨⟨⟨⟨⟨a, b⟩, c⟩, d⟩, e⟩, f⟩, g⟩, i⟩ := hf
  simp only [heldHistory, heldEntry_of_fits, a, b, c, d, e, f, g, i]

/-- One step of the transform that is not refused: the floor of the exact accumulator, which fits, and the
histories shifted by one. -/
theorem iirNext_ok {c : Build} {h h' : IirHistory} {x : Axis} {y : Int} :
    iirNext c h x = .ok (h', y) ↔
      y = iirAcc c.iir (heldHistory c.iirW h) x.toNat >>> c.iir.q ∧ fitsBits c.iirW y = true ∧
      h' = ⟨heldEntry c.iirW x.toNat, heldEntry c.iirW h.x1, heldEntry c.iirW h.x2, heldEntry c.iirW h.x3, y,
        heldEntry c.iirW h.y1, heldEntry c.iirW h.y2, heldEntry c.iirW h.y3⟩ := by
  simp only [iirNext]
  split
  · rename_i hf
    constructor
    · intro e
      cases e
      exact ⟨rfl, hf, rfl⟩
    · rintro ⟨rfl, -, rfl⟩
      rfl
  · rename_i hf
    constructor
    · intro e
      cases e
    · rintro ⟨rfl, hy, -⟩
      exact absurd hy hf

/-- The history and the output of a step fit `IIR_W` bits, whatever history was passed. -/
theorem iirNext_fits {c : Build} {h h' : IirHistory} {x : Axis} {y : Int} (e : iirNext c h x = .ok (h', y)) :
    historyFits c.iirW h' = true ∧ fitsBits c.iirW y = true := by
  obtain ⟨-, hy, rfl⟩ := iirNext_ok.1 e
  simp [historyFits, hy]

/-- `IIR_STEP` answers a next state exactly where the transform answers a result, and writes that result. -/
theorem execIirStep_next {h : IirHistory} {x : Axis} {s t : State} :
    execIirStep h x s = .next t ↔
      ∃ h' y, iirNext s.cfg h x = .ok (h', y) ∧ t = { s with iirHist := h', iirOut := y } := by
  unfold execIirStep
  cases e : iirNext s.cfg h x with
  | error r => simp
  | ok p => obtain ⟨h', y⟩ := p; simp [eq_comm]

/-! ### Fetch and step -/

/-- A fetch answers the head line of the schedule and takes it off, and changes nothing else. -/
theorem fetch_ok {s s' : State} {i : Instr} :
    fetch s = .ok (i, s') ↔ ∃ rest, decode s.sched = .ok (i, rest) ∧ s' = { s with sched := rest } := by
  unfold fetch
  cases h : decode s.sched with
  | error e => simp
  | ok p => obtain ⟨j, r⟩ := p; simp; exact fun _ => eq_comm

theorem runsHere_iff {i : Instr} {s : State} : runsHere i s = true ↔ ∃ t, exec i s = .next t := by
  unfold runsHere
  cases exec i s <;> simp

theorem step_scheduled {s : State} (h : s.sched ≠ []) : step s = scheduledStep s := by
  unfold step
  split <;> simp_all

theorem step_free {s : State} (h : s.sched = []) : step s = freeStep s := by
  unfold step
  split <;> simp_all

/-- A step that answers a next state ran the head line of the schedule, or a move open to the environment. -/
theorem step_next {s t : State} (h : step s = .next t) :
    (∃ i rest, decode s.sched = .ok (i, rest) ∧ exec i { s with sched := rest } = .next t) ∨
    (s.sched = [] ∧ ∃ i, exec i { s with freeCtr := s.freeCtr + 1 } = .next t) ∨
    (s.sched = [] ∧ t = raiseRdReq { s with freeCtr := s.freeCtr + 1 }) := by
  by_cases hs : s.sched = []
  · rw [step_free hs] at h
    unfold freeStep runMove at h
    split at h
    · exact .inr (.inl ⟨hs, _, h⟩)
    · exact .inr (.inr ⟨hs, (Host.Outcome.next.inj h).symm⟩)
  · rw [step_scheduled hs] at h
    unfold scheduledStep at h
    split at h
    · rename_i i s' hf
      obtain ⟨rest, hd, rfl⟩ := fetch_ok.1 hf
      exact .inl ⟨i, rest, hd, h⟩
    · cases h

end Sys2Proof.Laws
end

