-- ==== Sys2Proof/Laws/PerInstr.lean ====
section
/-! SUPPORT. Statements made of every operation, one lemma per constructor of Instr. -/

/-- The line of an operation is at least a format byte and one byte of its word, at most eight bytes but for the
line of `IIR_STEP`, which holds a history, and its format byte names a format of R90 that is an operation's. -/
def Sys2Proof.Laws.LineForm.Statement (i : Sys2Proof.Instr) : Prop :=
  2 ≤ (Sys2Proof.encode i).length ∧
  ((Sys2Proof.encode i).length ≤ 8 ∨ ∃ h x, i = .iirStep h x) ∧
  ∃ fmt rest, Sys2Proof.encode i = fmt :: rest ∧ fmt.toNat < 8 ∧ fmt.toNat ≠ 5

namespace Sys2Proof.Laws.LineForm

open Sys2Proof

theorem bwInit : Statement .bwInit := by
  simp [Statement, encode]

theorem bwIdq : Statement .bwIdq := by
  simp [Statement, encode]

theorem brFrame (d : Frame) : Statement (.brFrame d) := by
  simp [Statement, encode, bytesOfFrame]

theorem bwUnenc1 : Statement .bwUnenc1 := by
  simp [Statement, encode]

theorem bwUnenc2 : Statement .bwUnenc2 := by
  simp [Statement, encode]

theorem bwReq : Statement .bwReq := by
  simp [Statement, encode]

theorem fSpike (u0 u1 xh yh : Byte) : Statement (.fSpike u0 u1 xh yh) := by
  simp [Statement, encode]

theorem fValid (u0 u1 xh yh zh : Byte) (u7 : BitVec 1) (zl yl xl : BitVec 2) (ub : BitVec 1) :
    Statement (.fValid u0 u1 xh yh zh u7 zl yl xl ub) := by
  simp [Statement, encode]

theorem idGenuine (i0 i1 : Byte) : Statement (.idGenuine i0 i1) := by
  simp [Statement, encode]

theorem idOther (i0 i1 i2 i3 i4 i5 : Byte) : Statement (.idOther i0 i1 i2 i3 i4 i5) := by
  simp [Statement, encode]

theorem reset : Statement .reset := by
  simp [Statement, encode]

theorem iInit : Statement .iInit := by
  simp [Statement, encode]

theorem iIdq : Statement .iIdq := by
  simp [Statement, encode]

theorem iIdr (d : Frame) : Statement (.iIdr d) := by
  simp [Statement, encode, bytesOfFrame]

theorem iClass : Statement .iClass := by
  simp [Statement, encode]

theorem iUnenc1 : Statement .iUnenc1 := by
  simp [Statement, encode]

theorem iUnenc2 : Statement .iUnenc2 := by
  simp [Statement, encode]

theorem iReq : Statement .iReq := by
  simp [Statement, encode]

theorem iStart : Statement .iStart := by
  simp [Statement, encode]

theorem tick : Statement .tick := by
  simp [Statement, encode]

theorem cycle (d : Frame) : Statement (.cycle d) := by
  simp [Statement, encode, bytesOfFrame]

theorem hold : Statement .hold := by
  simp [Statement, encode]

theorem rdx : Statement .rdx := by
  simp [Statement, encode]

theorem rdy : Statement .rdy := by
  simp [Statement, encode]

theorem rdz : Statement .rdz := by
  simp [Statement, encode]

theorem release : Statement .release := by
  simp [Statement, encode]

theorem iirStep (h : IirHistory) (x : Axis) : Statement (.iirStep h x) := by
  simp [Statement, encode, bytesOfSample]

theorem failsig : Statement .failsig := by
  simp [Statement, encode]

theorem cRead (d : Frame) : Statement (.cRead d) := by
  simp [Statement, encode, bytesOfFrame]

theorem cReq : Statement .cReq := by
  simp [Statement, encode]

theorem cValid : Statement .cValid := by
  simp [Statement, encode]

theorem cUnpack : Statement .cUnpack := by
  simp [Statement, encode]

theorem cCarry : Statement .cCarry := by
  simp [Statement, encode]

theorem cStore : Statement .cStore := by
  simp [Statement, encode]

theorem cAvg : Statement .cAvg := by
  simp [Statement, encode]

theorem cPass : Statement .cPass := by
  simp [Statement, encode]

theorem cPub : Statement .cPub := by
  simp [Statement, encode]

end Sys2Proof.Laws.LineForm
end

