-- ==== Sys2Proof/Tests/Slice0.lean ====
section
/-! SUPPORT. Tests: every decoding from a word written out of the spec's encodings, the smoke test of the
well-formedness checks, steps of single operations against the vectors of 95_test_vectors.md, and a witness
for the hypotheses of every statement that has some. -/

namespace Sys2Proof.Tests

open Sys2Proof Sys2Proof.Machine

/-! ### Small states -/

/-- The example table of U10, for tests only. -/
def tableU10 : IirTable := ⟨14, 763, 3053, 4579, 3053, 763, -12814, 11141, -2993, 493⟩

/-- The toy table of T12. -/
def tableT12 : IirTable := ⟨1, 1, 0, 0, 0, 0, -1, 0, 0, 0⟩

/-- A moving average of depth `2^(k+1)`. -/
def cfgMa (k : Nat) : Build := ⟨.ma k, tableT12, 16⟩

/-- Passthrough. -/
def cfgPt : Build := ⟨.pt, tableT12, 16⟩

/-- The reset state of a configuration. -/
def base (c : Build) : State := { State.reset with cfg := c }

/-- The reset state at a phase of bring-up. -/
def atPhase (p : Phase) : State := { base cfgPt with ph := p }

/-- The operational state after the bring-up of a genuine sensor. -/
def running (c : Build) : State :=
  { base c with
    ph := .run, acqEn := true, genuine := true, indMode := .normal,
    busLog := [.w [0x40, 0x00], .w [0xFA], .r ⟨0, 0, 0x9A, 0x1E, 0xFE, 0xFE⟩, .w [0xF0, 0x55],
      .w [0xFB, 0x00], .w [0x00]] }

/-- A tick is pending. -/
def ticked (c : Build) : State := { running c with tickPend := true }

/-- A position inside a cycle, with a frame in `FB`. -/
def inCycle (c : Build) (p : CyclePos) (f : Frame) : State := { running c with cyc := p, fb := f }

/-- The failed state after the bring-up of a counterfeit sensor. -/
def failed : State := { base cfgPt with ph := .fail, indMode := .fail }

/-- The state after one operation. -/
def after (i : Instr) (s : State) : Option State := nextOf (exec i s)

/-- The sentinel frame of T3. -/
def spikeFrame : Frame := ⟨0, 0, 0xFF, 0xFF, 0xFE, 0xFE⟩

/-- The frame of T2 that unpacks to (513, 509, 5). -/
def goodFrame : Frame := ⟨0, 0, 0x80, 0x7F, 0x01, 0x2A⟩

/-- The genuine identification frame. -/
def idFrame : Frame := ⟨0x12, 0x34, 0x9A, 0x1E, 0xFE, 0xFE⟩

/-- A line decodes to an operation with nothing left over. -/
def decodesTo (bs : List Byte) (i : Instr) : Bool :=
  match decode bs with
  | .ok (j, []) => i == j
  | .ok (_, _ :: _) => false
  | .error _ => false

/-- A line is refused with an error. -/
def refusedBy (bs : List Byte) (e : DecodeError) : Bool :=
  match decode bs with
  | .ok _ => false
  | .error e' => e == e'

/-- An operation is refused in a state. -/
def refusedIn (i : Instr) (s : State) (r : Refusal) : Bool :=
  match exec i s with
  | .next _ => false
  | .fault _ => false
  | .refused r' => r == r'

/-! ### Decoding, from the words of 30_encoding.md R93, R95, R96 and R99 -/

theorem test_decode_bwInit : decodesTo [1, 0b01000000, 0b00000000] .bwInit = true := by decide
theorem test_decode_bwIdq : decodesTo [0, 0b11111010] .bwIdq = true := by decide
theorem test_decode_brFrame : decodesTo [2, 0x12, 0x34, 0xAB, 0xCD, 0xEF, 0x55]
    (.brFrame ⟨0x12, 0x34, 0xAB, 0xCD, 0xEF, 0x55⟩) = true := by decide
theorem test_decode_bwUnenc1 : decodesTo [1, 0b11110000, 0b01010101] .bwUnenc1 = true := by decide
theorem test_decode_bwUnenc2 : decodesTo [1, 0b11111011, 0b00000000] .bwUnenc2 = true := by decide
theorem test_decode_bwReq : decodesTo [0, 0b00000000] .bwReq = true := by decide
theorem test_decode_fSpike : decodesTo [3, 0x12, 0x34, 0x56, 0x78, 0b11111110, 0b11111110]
    (.fSpike 0x12 0x34 0x56 0x78) = true := by decide
-- byte 5 is u7 = 0, zl = 01, yl = 10, xl = 11, ub = 1
theorem test_decode_fValid : decodesTo [3, 0x12, 0x34, 0xAB, 0xCD, 0xEF, 0b00110111]
    (.fValid 0x12 0x34 0xAB 0xCD 0xEF 0b0 0b01 0b10 0b11 0b1) = true := by decide
theorem test_decode_idGenuine : decodesTo [4, 0x12, 0x34, 0b10011010, 0b00011110, 0b11111110, 0b11111110]
    (.idGenuine 0x12 0x34) = true := by decide
theorem test_decode_idOther : decodesTo [4, 0x00, 0x00, 0xA4, 0x20, 0x00, 0x00]
    (.idOther 0x00 0x00 0xA4 0x20 0x00 0x00) = true := by decide
theorem test_decode_reset : decodesTo [6, 0b00000] .reset = true := by decide
theorem test_decode_iInit : decodesTo [6, 0b00001] .iInit = true := by decide
theorem test_decode_iIdq : decodesTo [6, 0b00010] .iIdq = true := by decide
theorem test_decode_iIdr : decodesTo [6, 0b00011, 0, 0, 0x9A, 0x1E, 0xFE, 0xFE]
    (.iIdr ⟨0, 0, 0x9A, 0x1E, 0xFE, 0xFE⟩) = true := by decide
theorem test_decode_iClass : decodesTo [6, 0b00100] .iClass = true := by decide
theorem test_decode_iUnenc1 : decodesTo [6, 0b00101] .iUnenc1 = true := by decide
theorem test_decode_iUnenc2 : decodesTo [6, 0b00110] .iUnenc2 = true := by decide
theorem test_decode_iReq : decodesTo [6, 0b00111] .iReq = true := by decide
theorem test_decode_iStart : decodesTo [6, 0b01000] .iStart = true := by decide
theorem test_decode_tick : decodesTo [6, 0b01001] .tick = true := by decide
theorem test_decode_cycle : decodesTo [6, 0b01010, 0, 0, 0x0A, 0, 0, 0] (.cycle ⟨0, 0, 0x0A, 0, 0, 0⟩) = true := by
  decide
theorem test_decode_hold : decodesTo [6, 0b01011] .hold = true := by decide
theorem test_decode_rdx : decodesTo [6, 0b01100] .rdx = true := by decide
theorem test_decode_rdy : decodesTo [6, 0b01101] .rdy = true := by decide
theorem test_decode_rdz : decodesTo [6, 0b01110] .rdz = true := by decide
theorem test_decode_release : decodesTo [6, 0b01111] .release = true := by decide
-- the sample 1000 = 0x3E8; entries 100 and -1 stand as 200 = 72 + 128 * 1 and 1
theorem test_decode_iirStep : decodesTo [6, 0b10000, 0b11001000, 1, 0, 0, 0, 1, 0, 0, 0, 0x03, 0xE8]
    (.iirStep ⟨100, 0, 0, 0, -1, 0, 0, 0⟩ 1000) = true := by decide
theorem test_decode_failsig : decodesTo [6, 0b10001] .failsig = true := by decide
theorem test_decode_cRead : decodesTo [7, 0b0000, 1, 2, 3, 4, 5, 6] (.cRead ⟨1, 2, 3, 4, 5, 6⟩) = true := by decide
theorem test_decode_cReq : decodesTo [7, 0b0001] .cReq = true := by decide
theorem test_decode_cValid : decodesTo [7, 0b0010] .cValid = true := by decide
theorem test_decode_cUnpack : decodesTo [7, 0b0011] .cUnpack = true := by decide
theorem test_decode_cCarry : decodesTo [7, 0b0100] .cCarry = true := by decide
theorem test_decode_cStore : decodesTo [7, 0b0101] .cStore = true := by decide
theorem test_decode_cAvg : decodesTo [7, 0b0110] .cAvg = true := by decide
theorem test_decode_cPass : decodesTo [7, 0b0111] .cPass = true := by decide
theorem test_decode_cPub : decodesTo [7, 0b1000] .cPub = true := by decide

/-! ### What is refused (R100) -/

theorem test_refuse_event_18 : refusedBy [6, 18] .unknownEvent = true := by decide
theorem test_refuse_microop_9 : refusedBy [7, 9] .unknownMicroOp = true := by decide
theorem test_refuse_bus_byte : refusedBy [0, 0x52] .unknownBusWrite1 = true := by decide
theorem test_refuse_bus_pair : refusedBy [1, 0xF0, 0x00] .unknownBusWrite2 = true := by decide
theorem test_refuse_report : refusedBy [5, 0, 0, 0, 0, 0, 0, 0] .reportIsNoOperation = true := by decide
theorem test_refuse_sample_1024 : refusedBy [6, 16, 0, 0, 0, 0, 0, 0, 0, 0, 0x04, 0x00] .sampleTooWide = true := by decide
theorem test_refuse_long_entry :
    refusedBy [6, 16, 0x80, 0, 0, 0, 0, 0, 0, 0, 0, 0, 0] .entryNotShortest = true := by decide
theorem test_refuse_short_frame : refusedBy [2, 0, 0, 0, 0, 0] .truncated = true := by decide

/-! ### Words of the opcode table -/

theorem test_table_bwInit : decodeTableWord 16 0x4000 = some .bwInit := by decide
theorem test_table_event : decodeTableWord 8 10 = some (.cycle ⟨0, 0, 0, 0, 0, 0⟩) := by decide
theorem test_table_iirStep : decodeTableWord 8 16 = some (.iirStep zeroHistory 0) := by decide
theorem test_table_bwIdq : decodeTableWord 8 0xFA = some .bwIdq := by decide
theorem test_table_spike : decodeTableWord 48 0xFEFE = some (.fSpike 0 0 0 0) := by decide
theorem test_table_genuine : decodeTableWord 48 0x9A1EFEFE = some (.idGenuine 0 0) := by decide
theorem test_fetch_word_is_one_line : ((base cfgPt).withFetchWord 8 1).sched = [6, 1] := by decide
theorem test_first_step_runs_word :
    ((nextOf (step (State.reset.withFetchWord 8 1))).map State.ph) = some .i1 := by decide

/-! ### Well-formedness: an ill-formed term for each check -/

theorem test_wf_refuses_sentinel_as_valid : (Instr.fValid 0 0 0 0 0xFE 1 3 3 3 0).wf = false := by decide
theorem test_wf_refuses_pattern_as_other : (Instr.idOther 7 7 0x9A 0x1E 0xFE 0xFE).wf = false := by decide
theorem test_wf_accepts_near_sentinel : (Instr.fValid 0 0 0 0 0xFE 0 3 3 3 0).wf = true := by decide

/-! ### Frames (T2, T3, T4) -/

theorem test_unpack_low_bits : unpackFrame goodFrame = ⟨513, 509, 5⟩ := by decide
theorem test_unpack_ignores_0_1 : unpackFrame ⟨0x12, 0x34, 0xAB, 0xCD, 0xEF, 0x55⟩ = ⟨686, 822, 958⟩ := by decide
theorem test_unpack_open_bits : unpackFrame ⟨0, 0, 0, 0, 0, 0x81⟩ = ⟨0, 0, 0⟩ := by decide
theorem test_w48 : w48OfFrame ⟨0x12, 0x34, 0x56, 0x78, 0x9A, 0xBC⟩ = 0x123456789ABC := by decide
theorem test_frame_of_w48 : frameOfW48 0x123456789ABC = ⟨0x12, 0x34, 0x56, 0x78, 0x9A, 0xBC⟩ := by decide
theorem test_spike_needs_both : isSpike ⟨0, 0, 1, 2, 0xFE, 0xFF⟩ = false := by decide
theorem test_genuine_offset : isGenuine ⟨0x9A, 0x1E, 0xFE, 0xFE, 0, 0⟩ = false := by decide

/-! ### Bring-up (P1, P4) -/

theorem test_iInit_log : (after .iInit (atPhase .boot)).map State.busLog = some [.w [0x40, 0x00]] := by decide
theorem test_iInit_late : refusedIn .iInit (atPhase .i1) (.notEnabled .phase) = true := by decide
theorem test_iIdq_log : (after .iIdq (atPhase .i1)).map State.busLog = some [.w [0xFA]] := by decide
theorem test_iIdr_fb : (after (.iIdr idFrame) (atPhase .i2)).map State.fb = some idFrame := by decide
theorem test_iClass_genuine :
    (after .iClass { atPhase .i3 with fb := idFrame }).map State.genuine = some true := by decide
theorem test_iClass_one_bit :
    (after .iClass { atPhase .i3 with fb := ⟨0, 0, 0x1A, 0x1E, 0xFE, 0xFE⟩, genuine := true }).map State.genuine
      = some false := by decide
theorem test_iUnenc1_log : (after .iUnenc1 (atPhase .i4)).map State.busLog = some [.w [0xF0, 0x55]] := by decide
theorem test_iUnenc1_early : refusedIn .iUnenc1 (atPhase .i3) (.notEnabled .phase) = true := by decide
theorem test_iUnenc2_log : (after .iUnenc2 (atPhase .i5)).map State.busLog = some [.w [0xFB, 0x00]] := by decide
theorem test_iReq_log : (after .iReq (atPhase .i6)).map State.busLog = some [.w [0x00]] := by decide
theorem test_iStart_genuine :
    (after .iStart { atPhase .i7 with genuine := true }).map (fun s => (s.ph, s.acqEn, s.indMode))
      = some (.run, true, .normal) := by decide
theorem test_iStart_other :
    (after .iStart (atPhase .i7)).map (fun s => (s.ph, s.acqEn, s.indMode)) = some (.fail, false, .fail) := by decide
theorem test_failsig : after .failsig failed = some failed := by decide

/-! ### Bus commands and classes -/

theorem test_bwInit : after .bwInit (atPhase .boot) = after .iInit (atPhase .boot) := by decide
theorem test_bwIdq : (after .bwIdq (atPhase .i1)).map State.ph = some .i2 := by decide
theorem test_brFrame_bringup : (after (.brFrame idFrame) (atPhase .i2)).map State.ph = some .i3 := by decide
theorem test_brFrame_cycle : (after (.brFrame goodFrame) (ticked cfgPt)).map State.cyc = some .req := by decide
theorem test_bwUnenc1 : (after .bwUnenc1 (atPhase .i4)).map State.ph = some .i5 := by decide
theorem test_bwUnenc2 : (after .bwUnenc2 (atPhase .i5)).map State.ph = some .i6 := by decide
theorem test_bwReq_cycle : (after .bwReq (inCycle cfgPt .req goodFrame)).map State.cyc = some .valid := by decide
theorem test_fSpike : (after (.fSpike 0 0 0xFF 0xFF) (inCycle cfgPt .valid spikeFrame)).map State.rej = some true := by
  decide
theorem test_fSpike_other_frame :
    refusedIn (.fSpike 0 0 0xFF 0xFF) (inCycle cfgPt .valid goodFrame) (.notEnabled .frameClass) = true := by decide
theorem test_fValid : (after (.fValid 0 0 0x80 0x7F 0x01 0 1 1 1 0)
    { inCycle cfgPt .valid goodFrame with rej := true }).map State.rej = some false := by decide
theorem test_idGenuine : (after (.idGenuine 0x12 0x34) { atPhase .i3 with fb := idFrame }).map State.genuine
    = some true := by decide
theorem test_idOther : (after (.idOther 0 0 0xA4 0x20 0 0) { atPhase .i3 with fb := ⟨0, 0, 0xA4, 0x20, 0, 0⟩ }).map
    (fun s => (s.genuine, s.ph)) = some (false, .i4) := by decide

/-! ### The cycle (T1, T5 to T8, P3) -/

-- T1a, cycle 8: seven slots hold 40 to 280, CUR = 7
theorem test_cycle_ma : (after (.cycle ⟨0, 0, 0x50, 0, 0, 0⟩)
    { ticked (cfgMa 2) with
      buf := ⟨[(0, 40), (1, 80), (2, 120), (3, 160), (4, 200), (5, 240), (6, 280)], [], []⟩, cur := 7 }).map
    (fun s => (s.pub, s.cur)) = some (⟨180, 0, 0⟩, 0) := by decide
-- T6, cycle 3: a spike with CUR = 2
theorem test_cycle_spike : (after (.cycle spikeFrame)
    { ticked (cfgMa 1) with buf := ⟨[(0, 100), (1, 105)], [], []⟩, cur := 2 }).map
    (fun s => (s.pub.x, s.buf.x, s.cur)) = some (78, [(0, 100), (1, 105), (2, 105)], 3) := by decide
theorem test_cRead_clears_pending : (after (.cRead goodFrame) (ticked cfgPt)).map
    (fun s => (s.tickPend, s.fb)) = some (false, goodFrame) := by decide
theorem test_cRead_held :
    refusedIn (.cRead goodFrame) { ticked cfgPt with mask := true } (.notEnabled .cycleEntry) = true := by decide
theorem test_cReq_spike : (after .cReq { inCycle cfgPt .req spikeFrame with busLog := [] }).map State.busLog
    = some [.w [0x00]] := by decide
theorem test_cValid : (after .cValid (inCycle cfgPt .valid ⟨0, 0, 1, 2, 0xFE, 0x7E⟩)).map State.rej
    = some false := by decide
theorem test_cUnpack : (after .cUnpack (inCycle cfgPt .fill goodFrame)).map State.samp = some ⟨513, 509, 5⟩ := by decide
theorem test_cUnpack_rejected :
    refusedIn .cUnpack { inCycle cfgPt .fill goodFrame with rej := true } (.notEnabled .cyclePosition) = true := by
  decide
-- T7: CUR = 0 carries slot M - 1
theorem test_cCarry_wraps : (after .cCarry
    { inCycle (cfgMa 1) .fill spikeFrame with rej := true, buf := ⟨[(0, 9), (3, 7)], [(3, 8)], []⟩ }).map State.samp
    = some ⟨7, 8, 0⟩ := by decide
theorem test_cCarry_pt : (after .cCarry { inCycle cfgPt .fill spikeFrame with rej := true, lat := ⟨513, 509, 5⟩ }).map
    State.samp = some ⟨513, 509, 5⟩ := by decide
theorem test_cStore_ma : (after .cStore
    { inCycle (cfgMa 2) .store goodFrame with samp := ⟨40, 0, 7⟩, cur := 7, buf := ⟨[], [(7, 5)], []⟩ }).map
    (fun s => (s.buf, s.cur)) = some (⟨[(7, 40)], [], [(7, 7)]⟩, 0) := by decide
theorem test_cStore_pt : (after .cStore { inCycle cfgPt .store goodFrame with samp := ⟨1, 2, 3⟩ }).map State.lat
    = some ⟨1, 2, 3⟩ := by decide
-- T5: 1023, 1022, 1023, 1022 rounds up to 1023; 1, 1, 0, 0 to 1; 1, 0, 0, 0 to 0
theorem test_cAvg_rounds : (after .cAvg { inCycle (cfgMa 1) .filter goodFrame with
    buf := ⟨[(0, 1023), (1, 1022), (2, 1023), (3, 1022)], [(0, 1), (1, 1)], [(0, 1)]⟩ }).map State.filt
    = some ⟨1023, 1, 0⟩ := by decide
theorem test_cAvg_pt : refusedIn .cAvg (inCycle cfgPt .filter goodFrame) (.notEnabled .cyclePosition) = true := by
  decide
theorem test_cPass : (after .cPass { inCycle cfgPt .filter goodFrame with samp := ⟨1, 2, 3⟩ }).map State.filt
    = some ⟨1, 2, 3⟩ := by decide
theorem test_cPub : (after .cPub { inCycle cfgPt .pub goodFrame with filt := ⟨45, 0, 1023⟩ }).map
    (fun s => (s.pub, s.cyc)) = some (⟨0x002D, 0, 0x03FF⟩, .idle) := by decide

/-! ### The consumer and the timer (T9, T10) -/

theorem test_hold_keeps_tick : (after .hold (ticked cfgPt)).map (fun s => (s.mask, s.rseq, s.tickPend))
    = some (true, .h0, true) := by decide
theorem test_hold_in_cycle :
    refusedIn .hold (inCycle cfgPt .valid goodFrame) (.notEnabled .consumerSeq) = true := by decide
theorem test_rdx : (after .rdx { running cfgPt with rseq := .h0, pub := ⟨0x002D, 1, 2⟩, rep := ⟨7, 8, 9⟩ }).map
    State.rep = some ⟨0x002D, 8, 9⟩ := by decide
theorem test_rdy : (after .rdy { running cfgPt with rseq := .h1, pub := ⟨1, 0x01FD, 2⟩ }).map State.rep
    = some ⟨0, 0x01FD, 0⟩ := by decide
theorem test_rdz : (after .rdz { running cfgPt with rseq := .h2, pub := ⟨1, 2, 5⟩ }).map State.rep
    = some ⟨0, 0, 5⟩ := by decide
theorem test_release : (after .release { running cfgPt with rseq := .h3, mask := true }).map
    (fun s => (s.mask, s.rseq)) = some (false, .idle) := by decide
-- a second request makes rd_done fall, and so does the hold that answers it
theorem test_request_clears_done :
    (raiseRdReq { running cfgPt with rdDone := true }).rdDone = false ∧
    (raiseRdReq (running cfgPt)).rdReq = true := by decide
-- R227: a request made in PH_FAIL is never served
theorem test_request_in_fail : (raiseRdReq failed).rdReq = false := by decide
theorem test_tick_stopped : refusedIn .tick (atPhase .i7) (.notEnabled .timerStopped) = true := by decide
theorem test_tick : (after .tick (running cfgPt)).map State.tickPend = some true := by decide
theorem test_report_image : reportImage ⟨513, 509, 5⟩ = [0x01, 0x02, 0xFD, 0x01, 0x05, 0x00, 0x00] := by decide

/-! ### Reset (T20) and the IIR transform (T12 to T18) -/

/-- What `IIR_SEQ` answers on a fresh sequence, in a width of 16 bits. -/
def seqOut (t : IirTable) (xs : List Axis) : Option (List Int × IirHistory) :=
  match iirFreshSeq ⟨.pt, t, 16⟩ xs with
  | .ok p => some p
  | .error _ => none

theorem test_reset : after .reset { ticked (cfgMa 1) with cur := 3, pub := ⟨105, 0, 0⟩, buf := ⟨[(0, 1)], [], []⟩ }
    = some (base (cfgMa 1)) := by decide
-- T12, row 2
theorem test_iirStep_toy : (after (.iirStep ⟨100, 100, 0, 0, 75, 50, 0, 0⟩ 100) (base cfgPt)).map portIirOut
    = some (⟨100, 100, 100, 0, 87, 75, 50, 0⟩, 87) := by decide
-- T13, second step
theorem test_iirStep_u10 : (after (.iirStep ⟨512, 0, 0, 0, 23, 0, 0, 0⟩ 512)
    (base ⟨.pt, tableU10, 16⟩)).map State.iirOut = some 137 := by decide
-- T16: floor on a negative accumulator
theorem test_iir_floor : seqOut ⟨1, 1, 0, 0, 0, 0, 1, 0, 0, 0⟩ [3, 0, 0, 0]
    = some ([1, -1, 0, 0], ⟨0, 0, 0, 3, 0, 0, -1, 1⟩) := by decide
-- T18
theorem test_iir_taps : seqOut ⟨2, 1, 1, 1, 1, 0, 0, 0, 0, 0⟩ [10, 20, 30, 40, 50, 60]
    = some ([2, 7, 15, 25, 35, 45], ⟨60, 50, 40, 30, 45, 35, 25, 15⟩) := by decide
-- T15, on the operations a caller runs
theorem test_iir_calls : (callIirSeq zeroHistory [100, 100, 100] (base cfgPt)).map (fun p => (p.1, p.2.iirHist))
    = some ([50, 75, 87], ⟨100, 100, 100, 0, 87, 75, 50, 0⟩) := by decide
-- an output that does not fit 11 bits: T13, V = 1023, output 1089
theorem test_iirStep_overflow : refusedIn (.iirStep ⟨1023, 1023, 1023, 0, 707, 275, 47, 0⟩ 1023)
    (base ⟨.pt, tableU10, 11⟩) .iirWidth = true := by decide
-- an input of 1023 does not fit the 10 bits of an entry, its output 511 does: the step runs
theorem test_iirStep_wide_input : (after (.iirStep zeroHistory 1023) (base ⟨.pt, tableT12, 10⟩)).map
    (fun s => (s.iirOut, s.iirHist.y1)) = some (511, 511) := by decide

/-- The refusal of a depth, or the policy built. -/
def depthRefused (m : Nat) : Bool :=
  match policyOfDepth m with
  | .ok _ => false
  | .error _ => true

theorem test_depth_12_refused : depthRefused 12 = true := by decide
theorem test_depth_1_refused : depthRefused 1 = true := by decide
theorem test_depth_16_accepted : depthRefused 16 = false := by decide

/-! ### Witnesses: for each statement with hypotheses, states and operands that meet them, one for each of
its clauses -/

/-- An operation answers a next state. -/
def runs (i : Instr) (s : State) : Bool := (after i s).isSome

/-- A frame accepted by the validator that unpacks to the sample a spike would carry under `PT` at reset. -/
def zeroFrame : Frame := ⟨0, 0, 0, 0, 0, 0⟩

theorem witness_DecodeOfEncodeIsTheOperation :
    (Instr.fValid 0 0 0 0 0xFE 0 3 3 3 0).wf = true ∧ (Instr.idOther 0 0 0x9A 0x1E 0xFE 0xFF).wf = true := by decide
theorem witness_EncodeOfDecodeIsTheLine : decodesTo [6, 17] .failsig = true ∧ decodesTo [7, 8] .cPub = true := by
  decide
theorem witness_SampleFrameHasOneOfTwoClasses :
    (spikeFrame.b4 = 0xFE ∧ spikeFrame.b5 = 0xFE) ∧ ¬(goodFrame.b4 = 0xFE ∧ goodFrame.b5 = 0xFE) := by decide
theorem witness_LabelsThatNameNothingAreRefused :
    18 ≤ (18 : Byte).toNat ∧ 9 ≤ (9 : Byte).toNat ∧ 18 ≤ (255 : Byte).toNat := by decide
theorem witness_StepRunsTheScheduledOperation :
    decodesTo ({ atPhase .boot with sched := [6, 1] } : State).sched .iInit = true := by decide
theorem witness_FreeStepAlwaysAnswersNext : (failed.sched = []) ∧ (running (cfgMa 0)).sched = [] := by decide
theorem witness_InitEventWritesLegacySequence : (atPhase .boot).ph = .boot ∧ (atPhase .i1).ph ≠ .boot := by decide
theorem witness_IdentityQueryIsWritten : (atPhase .i1).ph = .i1 ∧ (atPhase .boot).ph ≠ .i1 := by decide
theorem witness_IdentificationFrameIsRead : (atPhase .i2).ph = .i2 ∧ (atPhase .i3).ph ≠ .i2 := by decide
theorem witness_ClassificationComparesBytesTwoToFive : (atPhase .i3).ph = .i3 ∧ (atPhase .i4).ph ≠ .i3 := by decide
theorem witness_FirstModeSwitchIsWritten : (atPhase .i4).ph = .i4 ∧ (atPhase .i3).ph ≠ .i4 := by decide
theorem witness_SecondModeSwitchIsWritten : (atPhase .i5).ph = .i5 ∧ (atPhase .i4).ph ≠ .i5 := by decide
theorem witness_FirstSampleIsRequested : (atPhase .i6).ph = .i6 ∧ (atPhase .run).ph ≠ .i6 := by decide
theorem witness_StartDependsOnTheClassification :
    ({ atPhase .i7 with genuine := true } : State).genuine = true ∧ (atPhase .i7).genuine = false ∧
    (atPhase .i7).ph = .i7 ∧ (atPhase .i6).ph ≠ .i7 := by decide
theorem witness_FailureSignalChangesNothing : failed.ph = .fail ∧ (running cfgPt).ph ≠ .fail := by decide
theorem witness_BringUpProducesSixTransactions : (base (cfgMa 2)).ph = .boot := by decide
theorem witness_BusCommandRunsAsItsCarrier :
    runs .bwInit (atPhase .boot) ∧ runs .bwIdq (atPhase .i1) ∧ runs (.brFrame idFrame) (atPhase .i2) ∧
    runs .bwUnenc1 (atPhase .i4) ∧ runs .bwUnenc2 (atPhase .i5) ∧ runs .bwReq (atPhase .i6) ∧
    ((ticked cfgPt).ph = .run ∧ (ticked cfgPt).tickPend = true ∧ (ticked cfgPt).mask = false ∧
      (ticked cfgPt).cyc = .idle) ∧
    ((inCycle cfgPt .req goodFrame).ph ≠ .i6 ∧ (inCycle cfgPt .req goodFrame).cyc = .req) := by decide
theorem witness_FrameClassRunsAsTheVerdict :
    ((inCycle cfgPt .valid spikeFrame).cyc = .valid ∧ spikeFrame.b4 = 0xFE ∧ spikeFrame.b5 = 0xFE) ∧
    ((inCycle cfgPt .valid goodFrame).fb.b5 = byte5Of 0 1 1 1 0 ∧
      ¬(goodFrame.b4 = 0xFE ∧ goodFrame.b5 = 0xFE)) ∧
    (idFrame.b2 = 0x9A ∧ idFrame.b3 = 0x1E ∧ idFrame.b4 = 0xFE ∧ idFrame.b5 = 0xFE) ∧
    (¬(goodFrame.b2 = 0x9A ∧ goodFrame.b3 = 0x1E ∧ goodFrame.b4 = 0xFE ∧ goodFrame.b5 = 0xFE)) ∧
    runs (.fSpike 0 0 0xFF 0xFF) (inCycle cfgPt .valid spikeFrame) ∧
    runs (.idGenuine 0x12 0x34) { atPhase .i3 with fb := idFrame } ∧
    runs (.idOther 0 0 0x80 0x7F 0x01 0x2A) { atPhase .i3 with fb := goodFrame } := by decide
/-! A run in which a tick and the cycle it causes take turns for ever. -/

/-- The bus history after `n` cycles. -/
def turnLog : Nat → List BusEvent
  | 0 => (running cfgPt).busLog
  | n + 1 => turnLog n ++ [.r zeroFrame] ++ [.w [0x00]]

/-- The moves of the run. -/
def turnMoves (n : Nat) : Move := if n % 2 = 0 then .op .tick else .op (.cycle zeroFrame)

/-- The states of the run. -/
def turnStates (n : Nat) : State :=
  { running cfgPt with tickPend := decide (n % 2 = 1), busLog := turnLog (n / 2) }

theorem turn_cycle (l : List BusEvent) :
    exec (.cycle zeroFrame) { running cfgPt with tickPend := true, busLog := l } =
      .next { running cfgPt with busLog := l ++ [.r zeroFrame] ++ [.w [0x00]] } := by
  with_unfolding_all rfl

theorem turn_isRun : IsRun turnMoves turnStates := by
  intro n
  rcases Nat.even_or_odd' n with ⟨k, rfl | rfl⟩
  · have h : (2 * k + 1) % 2 = 1 ∧ (2 * k + 1) / 2 = k ∧ 2 * k / 2 = k := by omega
    simp only [turnMoves, turnStates, Nat.mul_mod_right, h]
    rfl
  · have h : (2 * k + 1) % 2 = 1 ∧ (2 * k + 1 + 1) % 2 = 0 ∧ (2 * k + 1) / 2 = k ∧
        (2 * k + 1 + 1) / 2 = k + 1 := by omega
    simp only [turnMoves, turnStates, h]
    exact turn_cycle (turnLog k)

theorem turn_begins (n : Nat) : ∃ m, n ≤ m ∧ turnMoves m = .op (.cycle zeroFrame) :=
  ⟨2 * n + 1, by omega, by simp [turnMoves, Nat.add_mod]⟩

theorem turn_ticks (n : Nat) : ∃ m, n ≤ m ∧ turnMoves m = .op .tick := ⟨2 * n, by omega, by simp [turnMoves]⟩

theorem turn_fair : FairRun turnMoves turnStates := by
  refine ⟨turn_isRun, ⟨fun n _ => ?_, fun n h => absurd rfl (h n (Nat.le_refl n))⟩,
    fun n h => absurd rfl (h n (Nat.le_refl n)), fun n _ => turn_ticks n⟩
  obtain ⟨m, hm, e⟩ := turn_begins n
  exact ⟨m, hm, zeroFrame, .inl e⟩

theorem witness_CycleRunsExactlyWhenTaken :
    FairRun turnMoves turnStates ∧ NoOverrun turnMoves turnStates ∧ ControlInv (turnStates 0) ∧
    ∀ m, 0 ≤ m → (turnStates m).ph = .run ∧ (turnStates m).rseq = .idle := by
  refine ⟨turn_fair, fun n h => ?_, by decide, fun _ _ => ⟨rfl, rfl⟩⟩
  by_cases e : n % 2 = 0
  · simp [turnStates, e]
  · simp [turnMoves, e] at h

theorem witness_CycleUnderMovingAverage :
    (ticked (cfgMa 0)).cfg.policy = .ma 0 ∧ runs (.cycle spikeFrame) (ticked (cfgMa 0)) ∧
    runs (.cycle goodFrame) { ticked (cfgMa 0) with cur := 1 } := by decide
theorem witness_CycleUnderPassthrough :
    (ticked cfgPt).cfg.policy = .pt ∧ runs (.cycle spikeFrame) (ticked cfgPt) ∧
    runs (.cycle goodFrame) (ticked cfgPt) := by decide
theorem witness_ReadRequestAndValidate :
    runs (.cRead goodFrame) (ticked cfgPt) ∧ (inCycle cfgPt .req goodFrame).cyc = .req ∧
    (inCycle cfgPt .valid goodFrame).cyc = .valid := by decide
theorem witness_UnpackAssemblesTenBitAxes :
    runs .cUnpack (inCycle cfgPt .fill goodFrame) ∧
    ({ inCycle cfgPt .fill spikeFrame with rej := true } : State).rej = true := by decide
theorem witness_CarryRepeatsThePrecedingSample :
    runs .cCarry { inCycle (cfgMa 1) .fill spikeFrame with rej := true, cur := 0 } ∧
    runs .cCarry { inCycle (cfgMa 1) .fill spikeFrame with rej := true, cur := 3 } ∧
    (inCycle (cfgMa 1) .fill spikeFrame).cfg.policy = .ma 1 ∧ 3 < 2 ^ (1 + 1) ∧
    runs .cCarry { inCycle cfgPt .fill spikeFrame with rej := true } ∧
    (inCycle cfgPt .fill goodFrame).rej = false := by decide
theorem witness_StoreWritesTheSlotAtTheCursor :
    (inCycle (cfgMa 1) .store goodFrame).cyc = .store ∧ (inCycle (cfgMa 1) .store goodFrame).cfg.policy = .ma 1 ∧
    (inCycle cfgPt .store goodFrame).cyc = .store ∧ (inCycle cfgPt .store goodFrame).cfg.policy = .pt := by decide
theorem witness_FilterAveragesOrPasses :
    runs .cAvg (inCycle (cfgMa 0) .filter goodFrame) ∧ (inCycle (cfgMa 0) .filter goodFrame).cfg.policy = .ma 0 ∧
    runs .cPass (inCycle cfgPt .filter goodFrame) ∧ (inCycle cfgPt .filter goodFrame).cfg.policy = .pt := by decide
theorem witness_PublishExtendsTheFilterResult : (inCycle cfgPt .pub goodFrame).cyc = .pub := by decide
theorem witness_CycleIsItsMicroOperations :
    runs (.cycle spikeFrame) (ticked (cfgMa 1)) ∧
    (runOps (cycleOps (cfgMa 1).policy spikeFrame) (ticked (cfgMa 1))).isSome := by decide
theorem witness_RejectedFrameActsAsARepeat :
    (spikeFrame.b4 = 0xFE ∧ spikeFrame.b5 = 0xFE) ∧ ¬(zeroFrame.b4 = 0xFE ∧ zeroFrame.b5 = 0xFE) ∧
    unpackFrame zeroFrame = readSlot (ticked (cfgMa 1)).buf ((0 + (2 ^ 2 - 1)) % 2 ^ 2) ∧
    unpackFrame zeroFrame = (ticked cfgPt).lat ∧
    runs (.cycle spikeFrame) (ticked (cfgMa 1)) ∧ runs (.cycle zeroFrame) (ticked (cfgMa 1)) ∧
    runs (.cycle spikeFrame) (ticked cfgPt) ∧ runs (.cycle zeroFrame) (ticked cfgPt) := by decide
theorem witness_PublishedIsTheMeanOfTheLastSamples :
    (running (cfgMa 0)).cfg.policy = .ma 0 ∧ (running (cfgMa 0)).ph = .run ∧ (running (cfgMa 0)).acqEn = true ∧
    (running (cfgMa 0)).mask = false ∧ (running (cfgMa 0)).cyc = .idle ∧ (running (cfgMa 0)).buf = lanesOf [] ∧
    (running (cfgMa 0)).cur = 0 ∧ [spikeFrame] ≠ [] := by decide
theorem witness_PassthroughPublishesTheLastSample :
    (running cfgPt).cfg.policy = .pt ∧ (running cfgPt).ph = .run ∧ (running cfgPt).acqEn = true ∧
    (running cfgPt).mask = false ∧ (running cfgPt).cyc = .idle := by decide
theorem witness_AverageRoundsHalfUpWithinTheSlots :
    ∀ i, i < 2 ^ (0 + 1) → 5 ≤ (sparseRead (0 : Axis) [(0, 5), (1, 6)] i).toNat ∧
      (sparseRead (0 : Axis) [(0, 5), (1, 6)] i).toNat ≤ 6 := by decide
theorem witness_DepthIsAPowerOfTwoOrRefused : ∀ k, (0 : Nat) ≠ 2 ^ (k + 1) ∧ 1 ≠ 2 ^ (k + 1) := by
  intro k
  have h := Nat.one_le_two_pow (n := k)
  rw [Nat.pow_succ]
  omega
theorem witness_HoldMasksTheTimer :
    ((running cfgPt).rseq = .idle ∧ (running cfgPt).ph = .run ∧ (running cfgPt).cyc = .idle) ∧
    ¬((inCycle cfgPt .pub goodFrame).rseq = .idle ∧ (inCycle cfgPt .pub goodFrame).ph = .run ∧
      (inCycle cfgPt .pub goodFrame).cyc = .idle) := by decide
theorem witness_ReadXCopiesThePublishedField :
    ({ running cfgPt with rseq := .h0 } : State).rseq = .h0 ∧ (running cfgPt).rseq ≠ .h0 := by decide
theorem witness_ReadYCopiesThePublishedField :
    ({ running cfgPt with rseq := .h1 } : State).rseq = .h1 ∧ (running cfgPt).rseq ≠ .h1 := by decide
theorem witness_ReadZCopiesThePublishedField :
    ({ running cfgPt with rseq := .h2 } : State).rseq = .h2 ∧ (running cfgPt).rseq ≠ .h2 := by decide
/-- The running state after a completed read. -/
def done : State := { running cfgPt with rdDone := true, repWritten := true }

/-- The states of a run that does nothing but read, for ever. -/
def readStates (n : Nat) : State :=
  match n % 5 with
  | 0 => done
  | 1 => { done with mask := true, rseq := .h0, rdDone := false }
  | 2 => { done with mask := true, rseq := .h1, rdDone := false }
  | 3 => { done with mask := true, rseq := .h2, rdDone := false }
  | _ => { done with mask := true, rseq := .h3, rdDone := false }

/-- The moves of the run. -/
def readMoves (n : Nat) : Move :=
  match n % 5 with
  | 0 => .op .hold
  | 1 => .op .rdx
  | 2 => .op .rdy
  | 3 => .op .rdz
  | _ => .op .release

theorem read_isRun : IsRun readMoves readStates := by
  have h : ∀ k, k < 5 → runMove (readMoves k) (readStates k) = .next (readStates (k + 1)) := by
    intro k hk
    interval_cases k <;> rfl
  intro n
  have e := h (n % 5) (Nat.mod_lt n (by decide))
  simpa [readMoves, readStates, Nat.add_mod] using e

theorem read_fair : ConsumerFair readMoves readStates := by
  have h : ∀ k, k < 5 → ∃ i, i ∈ latestOps ∧ readMoves k = .op i := by decide
  intro n _
  obtain ⟨i, hi, e⟩ := h (n % 5) (Nat.mod_lt n (by decide))
  exact ⟨n, Nat.le_refl n, i, hi, by simpa [readMoves] using e⟩

theorem witness_ReleaseUnmasksTheTimer :
    (({ running cfgPt with rseq := .h3 } : State).rseq = .h3 ∧ (running cfgPt).rseq ≠ .h3) ∧
    IsRun readMoves readStates ∧ ConsumerFair readMoves readStates ∧ ControlInv (readStates 0) ∧
    (readStates 2).mask = true :=
  ⟨by decide, read_isRun, read_fair, by decide, by decide⟩
theorem witness_LatestDeliversTheReport : (runOps latestOps (running cfgPt)).isSome = true := by decide
-- R26: after reset the report registers are marked unwritten and give no report; after a `latest()` they do
theorem test_report_withheld_until_release :
    (portRep State.reset).2 = false ∧ readReport State.reset = none ∧
    (runOps latestOps (running cfgPt)).map (fun t => (portRep t).2) = some true := by decide
theorem witness_ReportIsWithheldUntilTheFirstRelease :
    runs .reset (running cfgPt) ∧ (running cfgPt).repWritten = false ∧ runs .tick (running cfgPt) ∧
    ((done.rdDone = true ∧ done.repWritten = true ∧ done.rseq = .idle) ∧ ReportComplete done ∧ done.ph ≠ .fail ∧
      runs .tick done ∧ runs .hold done) := by decide
theorem witness_LatestNeverTears :
    ((runOps [.hold, .rdx, .tick, .rdy, .rdz] (running cfgPt)).map (runs .release)) = some true := by decide
theorem witness_ConsumerSeesOnlyThePublishedSample :
    Instr.hold ∈ latestOps ∧ runs .hold (running cfgPt) ∧ (running cfgPt).pub = (running (cfgMa 1)).pub ∧
    (running cfgPt).rep = (running (cfgMa 1)).rep ∧ (running cfgPt).rseq = (running (cfgMa 1)).rseq ∧
    (running cfgPt).mask = (running (cfgMa 1)).mask ∧ (running cfgPt).ph = (running (cfgMa 1)).ph ∧
    (running cfgPt).cyc = (running (cfgMa 1)).cyc := by decide
theorem witness_TickSetsThePendingBit :
    (running cfgPt).acqEn = true ∧ ((ticked cfgPt).acqEn = true ∧ (ticked cfgPt).tickPend = true) ∧
    failed.acqEn = false := by decide
/-- The history of T12, row 2. -/
def rowTwo : IirHistory := ⟨100, 100, 0, 0, 75, 50, 0, 0⟩

-- the output 87 fits 8 bits and not 7
theorem witness_IirStepFloorsTheExactSum :
    heldHistory 8 rowTwo = rowTwo ∧ historyFits 8 rowTwo = true ∧
    iirAcc tableT12 rowTwo 100 = 175 ∧ ((100 : Axis).toNat : Int) = 100 ∧
    (87 : Int) * 2 ^ tableT12.q ≤ 175 ∧ (175 : Int) < (87 + 1) * 2 ^ tableT12.q ∧
    fitsBits 8 87 = true ∧ fitsBits 8 100 = true ∧ fitsBits 7 87 = false ∧
    runs (.iirStep rowTwo 100) (base ⟨.pt, tableT12, 8⟩) = true ∧
    (heldHistory 7 zeroHistory = zeroHistory ∧ iirAcc tableT12 zeroHistory 200 = 200 ∧
      (100 : Int) * 2 ^ tableT12.q ≤ 200 ∧ (200 : Int) < (100 + 1) * 2 ^ tableT12.q ∧
      fitsBits 7 100 = false) := by decide
theorem witness_IirSequenceThreadsTheHistory :
    (seqOut tableT12 [100, 100]).isSome = true ∧ (callIirSeq zeroHistory [100, 100] (base cfgPt)).isSome = true ∧
    refusedIn (.iirStep zeroHistory 1023) (base ⟨.pt, tableT12, 9⟩) .iirWidth = true := by decide
theorem witness_IirSequenceContinues :
    (seqOut tableT12 [100, 100, 100]).isSome = true ∧
    ((callIirSeq zeroHistory [100, 100, 100] (base cfgPt)).bind
      (fun p => callIirSeq p.2.iirHist [100, 100] p.2)).map Prod.fst = some [93, 96] := by decide
theorem test_fits_bounds :
    fitsBits 8 127 = true ∧ fitsBits 8 128 = false ∧ fitsBits 8 (-128) = true ∧ fitsBits 8 (-129) = false := by decide
theorem witness_RegistersAreWrittenByTheirOwners :
    runs .iClass (atPhase .i3) ∧ runs .cPub (inCycle cfgPt .pub goodFrame) ∧ runs .hold (running cfgPt) ∧
    runs .cStore (inCycle cfgPt .store goodFrame) ∧ runs .iStart (atPhase .i7) ∧
    runs .rdx { running cfgPt with rseq := .h0, mask := true } := by decide
theorem witness_PhaseAdvancesByOneRow :
    runs .iInit (atPhase .boot) ∧ runs .tick (running cfgPt) ∧ runs .failsig failed := by decide
theorem witness_ConfigurationStaysAndHistoryGrows :
    runs .reset (running cfgPt) ∧ runs (.cycle goodFrame) (ticked cfgPt) := by decide
theorem witness_FailedStateIsForGood : ControlInv failed ∧ failed.ph = .fail ∧ runs .failsig failed := by decide

/-- The running state with the line of `TICK` scheduled: one step of it answers a next state. -/
def tickScheduled (c : Build) : State := { running c with sched := [6, 9] }

theorem witness_StepKeepsTheControlState :
    ControlInv (tickScheduled cfgPt) ∧ (nextOf (step (tickScheduled cfgPt))).isSome = true := by decide
theorem witness_StepKeepsTheFilterStateInRange :
    filterStateOk (tickScheduled (cfgMa 1)) = true ∧ filterStateOk (tickScheduled cfgPt) = true ∧
    FieldsInRange (tickScheduled (cfgMa 1)) ∧ (nextOf (step (tickScheduled (cfgMa 1)))).isSome = true := by decide
theorem witness_StepKeepsTheIirHistories :
    historiesOk { base cfgPt with sched := encode (.iirStep rowTwo 100) } = true ∧
    (nextOf (step { base cfgPt with sched := encode (.iirStep rowTwo 100) })).isSome = true := by decide
theorem witness_StepKeepsTheBusProtocol :
    ControlInv (tickScheduled cfgPt) ∧ BusProtocolOk (tickScheduled cfgPt) ∧
    (nextOf (step (tickScheduled cfgPt))).isSome = true := by decide
theorem witness_StepKeepsTheSnapshot :
    ControlInv { tickScheduled cfgPt with rseq := .h2, mask := true } ∧
    SnapshotOk { tickScheduled cfgPt with rseq := .h2, mask := true } ∧
    ReportComplete { tickScheduled cfgPt with rseq := .h2, mask := true } ∧
    (nextOf (step { tickScheduled cfgPt with rseq := .h2, mask := true })).isSome = true := by decide

end Sys2Proof.Tests
end

section
/-! PROOFS. The configuration (00_scope.md R8): which depths are accepted when it is built, and that no
operation changes it; with it that the bus history (10_state.md R44) only grows but for a reset. -/

namespace Sys2Proof.Proofs

open Sys2Proof Sys2Proof.Machine Sys2Proof.Laws

/-! ### Depths (R8, R170) -/

/-- The check of `policyOfDepth` says what R8 does: a power of two, and not 1. -/
theorem depthCheck_iff (m : Nat) : (m = 2 ^ m.log2 ∧ 2 ≤ m) ↔ ∃ k, m = 2 ^ (k + 1) := by
  constructor
  · rintro ⟨hpow, htwo⟩
    cases hlog : m.log2 with
    | zero =>
      rw [hlog] at hpow
      omega
    | succ k => exact ⟨k, hlog ▸ hpow⟩
  · rintro ⟨k, rfl⟩
    exact ⟨by rw [Nat.log2_two_pow], Nat.le_self_pow k.succ_ne_zero 2⟩

/-- A power of two from 2 on is accepted, with its exponent as `LOG2M`. -/
theorem policyOfDepth_two_pow (k : Nat) : policyOfDepth (2 ^ (k + 1)) = .ok (.ma k) := by
  have hlog : (2 ^ (k + 1)).log2 - 1 = k := by rw [Nat.log2_two_pow, Nat.add_sub_cancel]
  rw [policyOfDepth, if_pos ((depthCheck_iff _).2 ⟨k, rfl⟩), hlog]

theorem policyOfDepth_badDepth {m : Nat} (h : ∀ k, m ≠ 2 ^ (k + 1)) :
    policyOfDepth m = .error .badDepth :=
  if_neg fun hcheck => let ⟨k, hk⟩ := (depthCheck_iff m).1 hcheck; h k hk

/-- Settles O36: the check of `policyOfDepth` is the existence of an exponent from 1 on. -/
theorem depthIsAPowerOfTwoOrRefused : Obligations.DepthIsAPowerOfTwoOrRefused :=
  ⟨policyOfDepth_two_pow, fun _ => policyOfDepth_badDepth⟩

/-! ### Configuration and bus history of the compound updates -/

@[simp] theorem microValid_cfg (b : Bool) (s : State) : (microValid b s).cfg = s.cfg := by
  rw [microValid_eq]

@[simp] theorem microValid_busLog (b : Bool) (s : State) : (microValid b s).busLog = s.busLog := by
  rw [microValid_eq]

@[simp] theorem microStore_cfg (s : State) : (microStore s).cfg = s.cfg := by
  rw [microStore_frame]

@[simp] theorem microStore_busLog (s : State) : (microStore s).busLog = s.busLog := by
  rw [microStore_frame]

@[simp] theorem cycleBody_cfg (d : Frame) (s : State) : (cycleBody d s).cfg = s.cfg := by
  rw [cycleBody_frame]

@[simp] theorem cycleBody_busLog (d : Frame) (s : State) :
    (cycleBody d s).busLog = s.busLog ++ [.r d] ++ [.w [0x00]] := by
  rw [cycleBody_frame]

@[simp] theorem bringUpEnd_cfg (s : State) : (bringUpEnd s).cfg = s.cfg := by
  unfold bringUpEnd
  split <;> rfl

@[simp] theorem bringUpEnd_busLog (s : State) : (bringUpEnd s).busLog = s.busLog := by
  unfold bringUpEnd
  split <;> rfl

/-! ### The configuration stays and the bus history grows (R8, R42, R44) -/

/-- State `t` has the configuration of `s`, and its bus history goes on from that of `s`. -/
structure ContinuesHistory (s t : State) : Prop where
  cfg_eq : t.cfg = s.cfg
  log_prefix : s.busLog <+: t.busLog

namespace ContinuesHistory

variable {s t u : State}

/-- No transaction takes place. -/
theorem of_same_log (hcfg : t.cfg = s.cfg) (hlog : t.busLog = s.busLog) : ContinuesHistory s t :=
  ⟨hcfg, hlog ▸ List.prefix_rfl⟩

/-- Transactions take place, each seen as its entry (R14). -/
theorem of_append {es : List BusEvent} (hcfg : t.cfg = s.cfg) (hlog : t.busLog = s.busLog ++ es) :
    ContinuesHistory s t :=
  ⟨hcfg, hlog ▸ List.prefix_append s.busLog es⟩

/-- A guarded event that answers a next state answers the state its update makes. -/
theorem of_whenEnabled {g : Bool} {why : Guard} (h : whenEnabled g why u = .next t)
    (hu : ContinuesHistory s u) : ContinuesHistory s t := by
  obtain ⟨-, rfl⟩ := whenEnabled_next.1 h
  exact hu

/-- A bus command that two places of the program issue runs as the one its first guard picks (R93). -/
theorem of_either {g g' : Bool} {why : Guard} {a b : State}
    (h : (if g then .next a else whenEnabled g' why b) = .next t)
    (ha : ContinuesHistory s a) (hb : ContinuesHistory s b) : ContinuesHistory s t := by
  cases g with
  | true =>
    cases h
    exact ha
  | false => exact of_whenEnabled h hb

theorem of_bringUpWrite (bytes : List Byte) (n : Phase) (s : State) :
    ContinuesHistory s (bringUpWrite bytes n s) :=
  of_append (bringUpWrite_cfg s bytes n) (bringUpWrite_busLog s bytes n)

theorem of_bringUpRead (d : Frame) (s : State) : ContinuesHistory s (bringUpRead d s) :=
  of_append (bringUpRead_cfg s d) (bringUpRead_busLog s d)

theorem of_bringUpClass (b : Bool) (s : State) : ContinuesHistory s (bringUpClass b s) :=
  of_same_log (bringUpClass_cfg s b) (bringUpClass_busLog s b)

theorem of_microRead_enterCycle (d : Frame) (s : State) :
    ContinuesHistory s (microRead d (enterCycle s)) :=
  of_append (microRead_cfg (enterCycle s) d) (microRead_busLog (enterCycle s) d)

theorem of_microReq (s : State) : ContinuesHistory s (microReq s) :=
  of_append (microReq_cfg s) (microReq_busLog s)

theorem of_microValid (b : Bool) (s : State) : ContinuesHistory s (microValid b s) :=
  of_same_log (microValid_cfg b s) (microValid_busLog b s)

/-- The two transactions of a cycle: the read, then the request for the next sample (R146). -/
theorem of_cycleBody (d : Frame) (s : State) : ContinuesHistory s (cycleBody d s) :=
  of_append (cycleBody_cfg d s) ((cycleBody_busLog d s).trans (List.append_assoc ..))

theorem of_execIirStep {hist : IirHistory} {x : Axis} (h : execIirStep hist x s = .next t) :
    ContinuesHistory s t := by
  obtain ⟨_, _, -, rfl⟩ := execIirStep_next.1 h
  exact of_same_log rfl rfl

/-- Every operation but `RESET`, which alone clears the bus history (R280). -/
theorem of_exec {i : Instr} (hi : i ≠ .reset) (h : exec i s = .next t) : ContinuesHistory s t := by
  cases i with
  | reset => exact absurd rfl hi
  | bwInit => exact of_whenEnabled h (of_bringUpWrite ..)
  | bwIdq => exact of_whenEnabled h (of_bringUpWrite ..)
  | brFrame d => exact of_either h (of_bringUpRead d s) (of_microRead_enterCycle d s)
  | bwUnenc1 => exact of_whenEnabled h (of_bringUpWrite ..)
  | bwUnenc2 => exact of_whenEnabled h (of_bringUpWrite ..)
  | bwReq => exact of_either h (of_bringUpWrite ..) (of_microReq s)
  | fSpike => exact of_whenEnabled h (of_microValid ..)
  | fValid => exact of_whenEnabled h (of_microValid ..)
  | idGenuine => exact of_whenEnabled h (of_bringUpClass ..)
  | idOther => exact of_whenEnabled h (of_bringUpClass ..)
  | iInit => exact of_whenEnabled h (of_bringUpWrite ..)
  | iIdq => exact of_whenEnabled h (of_bringUpWrite ..)
  | iIdr d => exact of_whenEnabled h (of_bringUpRead d s)
  | iClass => exact of_whenEnabled h (of_bringUpClass ..)
  | iUnenc1 => exact of_whenEnabled h (of_bringUpWrite ..)
  | iUnenc2 => exact of_whenEnabled h (of_bringUpWrite ..)
  | iReq => exact of_whenEnabled h (of_bringUpWrite ..)
  | iStart => exact of_whenEnabled h (of_same_log (bringUpEnd_cfg s) (bringUpEnd_busLog s))
  | tick => exact of_whenEnabled h (of_same_log rfl rfl)
  | cycle d => exact of_whenEnabled h (of_cycleBody d s)
  | hold => exact of_whenEnabled h (of_same_log rfl rfl)
  | rdx => exact of_whenEnabled h (of_same_log rfl rfl)
  | rdy => exact of_whenEnabled h (of_same_log rfl rfl)
  | rdz => exact of_whenEnabled h (of_same_log rfl rfl)
  | release => exact of_whenEnabled h (of_same_log rfl rfl)
  | iirStep hist x => exact of_execIirStep h
  | failsig => exact of_whenEnabled h (of_same_log rfl rfl)
  | cRead d => exact of_whenEnabled h (of_microRead_enterCycle d s)
  | cReq => exact of_whenEnabled h (of_microReq s)
  | cValid => exact of_whenEnabled h (of_microValid ..)
  | cUnpack => exact of_whenEnabled h (of_same_log (microUnpack_cfg s) (microUnpack_busLog s))
  | cCarry => exact of_whenEnabled h (of_same_log (microCarry_cfg s) (microCarry_busLog s))
  | cStore => exact of_whenEnabled h (of_same_log (microStore_cfg s) (microStore_busLog s))
  | cAvg => exact of_whenEnabled h (of_same_log (microAvg_cfg s) (microAvg_busLog s))
  | cPass => exact of_whenEnabled h (of_same_log (microPass_cfg s) (microPass_busLog s))
  | cPub => exact of_whenEnabled h (of_same_log (microPub_cfg s) (microPub_busLog s))

end ContinuesHistory

/-- No operation changes the configuration; `RESET` takes it over from the state before (R282). -/
theorem exec_cfg {i : Instr} {s t : State} (h : exec i s = .next t) : t.cfg = s.cfg := by
  by_cases hi : i = .reset
  · subst hi
    cases h
    exact resetState_cfg s
  · exact (ContinuesHistory.of_exec hi h).cfg_eq

/-- Settles O53, by what each operation's update does to the configuration and the bus history. -/
theorem configurationStaysAndHistoryGrows : Obligations.ConfigurationStaysAndHistoryGrows := by
  intro i s t h
  refine ⟨exec_cfg h, fun hi => ?_⟩
  obtain ⟨es, hes⟩ := (ContinuesHistory.of_exec hi h).log_prefix
  exact ⟨es, hes.symm⟩

end Sys2Proof.Proofs
end

section
/-! PROOFS. What one operation can do, said once: every operation that answers a next state is one case of
`OpEffect`. On it stand who writes which register (10_state.md R20 to R37) and the advance of `PH` (R28). -/

namespace Sys2Proof.Proofs

open Sys2Proof Sys2Proof.Machine Sys2Proof.Laws

/-! ### Guards -/

theorem cycleReady_iff {s : State} :
    cycleReady s = true ↔ s.ph = .run ∧ s.tickPend = true ∧ s.mask = false ∧ s.cyc = .idle := by
  simp [cycleReady, and_assoc]

theorem holdReady_iff {s : State} :
    holdReady s = true ↔ s.rseq = .idle ∧ s.ph = .run ∧ s.cyc = .idle := by
  simp [holdReady, and_assoc]

/-! ### The effect of an operation -/

/-- The rows of bring-up that write to the bus: the phase, the bytes, the next phase (R120, R121, R124 to R126). -/
inductive BringUpRow : Phase → List Byte → Phase → Prop where
  | init : BringUpRow .boot [0x40, 0x00] .i1
  | idq : BringUpRow .i1 [0xFA] .i2
  | unenc1 : BringUpRow .i4 [0xF0, 0x55] .i5
  | unenc2 : BringUpRow .i5 [0xFB, 0x00] .i6
  | req : BringUpRow .i6 [0x00] .i7

/-- The classification of the sensor: `I_CLASS` or one of its two frame classes (R123). -/
def ClassifiesSensor (i : Instr) : Prop :=
  i = .iClass ∨ (∃ a b, i = .idGenuine a b) ∨ ∃ a b c d e f, i = .idOther a b c d e f

/-- What operation `i` does to `s` where it answers a next state: the condition it ran under and that state. An
event and the bus command or frame class that stands for it have one case. The store and the cycle are written
with the registers they leave in place (`microStore_frame`, `cycleBody_frame`). -/
inductive OpEffect (s : State) : Instr → State → Prop where
  | reset : OpEffect s .reset (resetState s)
  | bringUpWrite {i : Instr} {p q : Phase} {bytes : List Byte} (hph : s.ph = p) (row : BringUpRow p bytes q) :
      OpEffect s i (bringUpWrite bytes q s)
  | identRead {i : Instr} {d : Frame} (hph : s.ph = .i2) : OpEffect s i (bringUpRead d s)
  | classify {i : Instr} (hi : ClassifiesSensor i) (hph : s.ph = .i3) :
      OpEffect s i (bringUpClass (isGenuine s.fb) s)
  | start (hph : s.ph = .i7) (hg : s.genuine = true) :
      OpEffect s .iStart { s with acqEn := true, indMode := .normal, ph := .run }
  | identFailure (hph : s.ph = .i7) (hg : s.genuine = false) :
      OpEffect s .iStart (raiseCondition .identFailure s)
  | failsig (hph : s.ph = .fail) : OpEffect s .failsig s
  | tick (hen : s.acqEn = true) : OpEffect s .tick { s with tickPend := true }
  | hold (hph : s.ph = .run) (hseq : s.rseq = .idle) (hcyc : s.cyc = .idle) :
      OpEffect s .hold { s with mask := true, rseq := .h0, rdReq := false, rdDone := false }
  | rdx (hseq : s.rseq = .h0) : OpEffect s .rdx { s with rep := { s.rep with x := s.pub.x }, rseq := .h1 }
  | rdy (hseq : s.rseq = .h1) : OpEffect s .rdy { s with rep := { s.rep with y := s.pub.y }, rseq := .h2 }
  | rdz (hseq : s.rseq = .h2) : OpEffect s .rdz { s with rep := { s.rep with z := s.pub.z }, rseq := .h3 }
  | release (hseq : s.rseq = .h3) :
      OpEffect s .release { s with mask := false, rseq := .idle, rdDone := true, repWritten := true }
  | iirStep {h h' : IirHistory} {x : Axis} {y : Int} (hok : iirNext s.cfg h x = .ok (h', y)) :
      OpEffect s (.iirStep h x) { s with iirHist := h', iirOut := y }
  | cycle {d : Frame} (hready : cycleReady s = true) :
      OpEffect s (.cycle d)
        { s with
          fb := d, tickPend := false, cyc := .idle, busLog := s.busLog ++ [.r d] ++ [.w [0x00]],
          rej := isSpike d,
          samp := (cycleBody d s).samp, buf := (cycleBody d s).buf, cur := (cycleBody d s).cur,
          lat := (cycleBody d s).lat, filt := (cycleBody d s).filt, pub := (cycleBody d s).pub }
  | read {i : Instr} {d : Frame} (hready : cycleReady s = true) : OpEffect s i (microRead d (enterCycle s))
  | request {i : Instr} (hcyc : s.cyc = .req) : OpEffect s i (microReq s)
  | validate {i : Instr} (hcyc : s.cyc = .valid) : OpEffect s i { s with rej := isSpike s.fb, cyc := .fill }
  | unpack (hcyc : s.cyc = .fill) (hrej : s.rej = false) : OpEffect s .cUnpack (microUnpack s)
  | carry (hcyc : s.cyc = .fill) (hrej : s.rej = true) : OpEffect s .cCarry (microCarry s)
  | store (hcyc : s.cyc = .store) :
      OpEffect s .cStore
        { s with buf := (microStore s).buf, cur := (microStore s).cur, lat := (microStore s).lat,
                 cyc := .filter }
  | average (hcyc : s.cyc = .filter) (hpol : s.cfg.policy ≠ .pt) : OpEffect s .cAvg (microAvg s)
  | pass (hcyc : s.cyc = .filter) (hpol : s.cfg.policy = .pt) : OpEffect s .cPass (microPass s)
  | publish (hcyc : s.cyc = .pub) : OpEffect s .cPub (microPub s)

namespace OpEffect

variable {s t u : State} {i : Instr}

theorem of_whenEnabled {g : Bool} {why : Guard} (h : whenEnabled g why u = .next t)
    (hu : g = true → OpEffect s i u) : OpEffect s i t := by
  obtain ⟨hg, rfl⟩ := whenEnabled_next.1 h
  exact hu hg

/-- A bus command that two places of the program issue runs as the one its first guard picks (R93). -/
theorem of_either {g g' : Bool} {why : Guard} {a b : State}
    (h : (if g then .next a else whenEnabled g' why b) = .next t)
    (ha : g = true → OpEffect s i a) (hb : g' = true → OpEffect s i b) : OpEffect s i t := by
  cases g with
  | true =>
    cases h
    exact ha rfl
  | false => exact of_whenEnabled h hb

/-- The classifier's verdict is what it computes of the frame in `FB`, given or not (R123). -/
theorem of_verdict {b : Bool} (hi : ClassifiesSensor i) (hph : s.ph = .i3) (hb : isGenuine s.fb = b) :
    OpEffect s i (bringUpClass b s) :=
  hb ▸ classify hi hph

/-- The validator's verdict is what it computes of the frame in `FB`, given or not (R143). -/
theorem of_validation {b : Bool} (hcyc : s.cyc = .valid) (hb : isSpike s.fb = b) :
    OpEffect s i (microValid b s) := by
  rw [microValid_eq, ← hb]
  exact validate hcyc

theorem of_bringUpEnd (hph : s.ph = .i7) : OpEffect s .iStart (bringUpEnd s) := by
  unfold bringUpEnd
  split
  case isTrue hg => exact start hph hg
  case isFalse hg => exact identFailure hph (Bool.eq_false_of_not_eq_true hg)

theorem of_cycleBody {d : Frame} (hready : cycleReady s = true) :
    OpEffect s (.cycle d) (cycleBody d s) := by
  rw [cycleBody_frame]
  exact cycle hready

theorem of_microStore (hcyc : s.cyc = .store) : OpEffect s .cStore (microStore s) := by
  rw [microStore_frame]
  exact store hcyc

theorem of_failsig (hph : s.ph = .fail) : OpEffect s .failsig { s with ph := .fail } := by
  rw [← hph]
  exact failsig hph

/-- Every operation that answers a next state has one of the effects. -/
theorem of_exec (h : exec i s = .next t) : OpEffect s i t := by
  cases i with
  | reset =>
    cases h
    exact reset
  | bwInit => exact of_whenEnabled h fun hg => bringUpWrite (eq_of_beq hg) .init
  | bwIdq => exact of_whenEnabled h fun hg => bringUpWrite (eq_of_beq hg) .idq
  | brFrame d => exact of_either h (fun hg => identRead (eq_of_beq hg)) read
  | bwUnenc1 => exact of_whenEnabled h fun hg => bringUpWrite (eq_of_beq hg) .unenc1
  | bwUnenc2 => exact of_whenEnabled h fun hg => bringUpWrite (eq_of_beq hg) .unenc2
  | bwReq =>
    exact of_either h (fun hg => bringUpWrite (eq_of_beq hg) .req) fun hg => request (eq_of_beq hg)
  | fSpike =>
    refine of_whenEnabled h fun hg => ?_
    obtain ⟨hcyc, hfb⟩ := (Bool.and_eq_true _ _).mp hg
    exact of_validation (eq_of_beq hcyc) (by rw [eq_of_beq hfb]; rfl)
  | fValid =>
    refine of_whenEnabled h fun hg => ?_
    simp only [Bool.and_eq_true, Bool.not_eq_true'] at hg
    obtain ⟨⟨hcyc, -⟩, hspike⟩ := hg
    exact of_validation (eq_of_beq hcyc) hspike
  | idGenuine a b =>
    refine of_whenEnabled h fun hg => ?_
    obtain ⟨hph, hfb⟩ := (Bool.and_eq_true _ _).mp hg
    exact of_verdict (.inr (.inl ⟨a, b, rfl⟩)) (eq_of_beq hph) (by rw [eq_of_beq hfb]; rfl)
  | idOther a b c d e f =>
    refine of_whenEnabled h fun hg => ?_
    simp only [Bool.and_eq_true, Bool.not_eq_true'] at hg
    obtain ⟨⟨hph, -⟩, hother⟩ := hg
    exact of_verdict (.inr (.inr ⟨a, b, c, d, e, f, rfl⟩)) (eq_of_beq hph) hother
  | iInit => exact of_whenEnabled h fun hg => bringUpWrite (eq_of_beq hg) .init
  | iIdq => exact of_whenEnabled h fun hg => bringUpWrite (eq_of_beq hg) .idq
  | iIdr d => exact of_whenEnabled h fun hg => identRead (eq_of_beq hg)
  | iClass => exact of_whenEnabled h fun hg => classify (.inl rfl) (eq_of_beq hg)
  | iUnenc1 => exact of_whenEnabled h fun hg => bringUpWrite (eq_of_beq hg) .unenc1
  | iUnenc2 => exact of_whenEnabled h fun hg => bringUpWrite (eq_of_beq hg) .unenc2
  | iReq => exact of_whenEnabled h fun hg => bringUpWrite (eq_of_beq hg) .req
  | iStart => exact of_whenEnabled h fun hg => of_bringUpEnd (eq_of_beq hg)
  | tick => exact of_whenEnabled h tick
  | cycle d => exact of_whenEnabled h of_cycleBody
  | hold =>
    refine of_whenEnabled h fun hg => ?_
    obtain ⟨hseq, hph, hcyc⟩ := holdReady_iff.1 hg
    exact hold hph hseq hcyc
  | rdx => exact of_whenEnabled h fun hg => rdx (eq_of_beq hg)
  | rdy => exact of_whenEnabled h fun hg => rdy (eq_of_beq hg)
  | rdz => exact of_whenEnabled h fun hg => rdz (eq_of_beq hg)
  | release => exact of_whenEnabled h fun hg => release (eq_of_beq hg)
  | iirStep hist x =>
    obtain ⟨_, _, hok, rfl⟩ := execIirStep_next.1 h
    exact iirStep hok
  | failsig => exact of_whenEnabled h fun hg => of_failsig (eq_of_beq hg)
  | cRead d => exact of_whenEnabled h read
  | cReq => exact of_whenEnabled h fun hg => request (eq_of_beq hg)
  | cValid => exact of_whenEnabled h fun hg => of_validation (eq_of_beq hg) rfl
  | cUnpack =>
    refine of_whenEnabled h fun hg => ?_
    simp only [Bool.and_eq_true, Bool.not_eq_true'] at hg
    obtain ⟨hcyc, hrej⟩ := hg
    exact unpack (eq_of_beq hcyc) hrej
  | cCarry =>
    refine of_whenEnabled h fun hg => ?_
    obtain ⟨hcyc, hrej⟩ := (Bool.and_eq_true _ _).mp hg
    exact carry (eq_of_beq hcyc) hrej
  | cStore => exact of_whenEnabled h fun hg => of_microStore (eq_of_beq hg)
  | cAvg =>
    refine of_whenEnabled h fun hg => ?_
    obtain ⟨hcyc, hpol⟩ := (Bool.and_eq_true _ _).mp hg
    exact average (eq_of_beq hcyc) (bne_iff_ne.mp hpol)
  | cPass =>
    refine of_whenEnabled h fun hg => ?_
    obtain ⟨hcyc, hpol⟩ := (Bool.and_eq_true _ _).mp hg
    exact pass (eq_of_beq hcyc) (eq_of_beq hpol)
  | cPub => exact of_whenEnabled h fun hg => publish (eq_of_beq hg)

/-! ### Who writes what (R20 to R37)

In each proof the named cases are the owners; every other effect leaves the register as it is. -/

theorem genuine_owner (h : OpEffect s i t) (hi : i ≠ .reset) (hne : t.genuine ≠ s.genuine) :
    ClassifiesSensor i := by
  cases h with
  | reset => exact absurd rfl hi
  | classify hc _ => exact hc
  | _ => exact absurd rfl hne

theorem pub_owner (h : OpEffect s i t) (hi : i ≠ .reset) (hne : t.pub ≠ s.pub) :
    i = .cPub ∨ ∃ d, i = .cycle d := by
  cases h with
  | reset => exact absurd rfl hi
  | publish => exact .inl rfl
  | cycle => exact .inr ⟨_, rfl⟩
  | _ => exact absurd rfl hne

theorem mask_owner (h : OpEffect s i t) (hi : i ≠ .reset) (hne : t.mask ≠ s.mask) :
    i = .hold ∨ i = .release := by
  cases h with
  | reset => exact absurd rfl hi
  | hold => exact .inl rfl
  | release => exact .inr rfl
  | _ => exact absurd rfl hne

theorem filterState_owner (h : OpEffect s i t) (hi : i ≠ .reset)
    (hne : t.buf ≠ s.buf ∨ t.cur ≠ s.cur ∨ t.lat ≠ s.lat) : i = .cStore ∨ ∃ d, i = .cycle d := by
  cases h with
  | reset => exact absurd rfl hi
  | store => exact .inl rfl
  | cycle => exact .inr ⟨_, rfl⟩
  | _ => simp at hne

theorem timer_owner (h : OpEffect s i t) (hi : i ≠ .reset)
    (hne : t.acqEn ≠ s.acqEn ∨ t.indMode ≠ s.indMode) : i = .iStart := by
  cases h with
  | reset => exact absurd rfl hi
  | start | identFailure => rfl
  | _ => simp at hne

theorem rep_owner (h : OpEffect s i t) (hi : i ≠ .reset) (hne : t.rep ≠ s.rep) :
    i = .rdx ∨ i = .rdy ∨ i = .rdz := by
  cases h with
  | reset => exact absurd rfl hi
  | rdx => exact .inl rfl
  | rdy => exact .inr (.inl rfl)
  | rdz => exact .inr (.inr rfl)
  | _ => exact absurd rfl hne

end OpEffect

/-- Settles O51, register by register from the effects of the operations. -/
theorem registersAreWrittenByTheirOwners : Obligations.RegistersAreWrittenByTheirOwners := by
  intro i s t h hi
  have eff := OpEffect.of_exec h
  exact ⟨eff.genuine_owner hi, eff.pub_owner hi, eff.mask_owner hi, eff.filterState_owner hi,
    eff.timer_owner hi, eff.rep_owner hi⟩

/-! ### The advance of `PH` (R28) -/

theorem ne_last_of_phaseRank_lt {p : Phase} (h : phaseRank p < 8) : p ≠ .run ∧ p ≠ .fail :=
  ⟨fun e => by simp [e, phaseRank] at h, fun e => by simp [e, phaseRank] at h⟩

theorem phaseRank_le (p : Phase) : phaseRank p ≤ 8 := by
  cases p <;> decide

namespace BringUpRow

variable {p q : Phase} {bytes : List Byte}

theorem rank_succ (row : BringUpRow p bytes q) : phaseRank q = phaseRank p + 1 := by
  cases row <;> rfl

/-- A row of bring-up does not lead to one of the two last phases. -/
theorem rank_lt (row : BringUpRow p bytes q) : phaseRank q < 8 := by
  cases row <;> decide

theorem ne_run (row : BringUpRow p bytes q) : p ≠ .run ∧ q ≠ .run := by
  cases row <;> decide

/-- A row of bring-up sends the write that comes next, whatever the position inside a cycle (R129). -/
theorem busNext_write (row : BringUpRow p bytes q) (c : CyclePos) :
    busNext (busPosOf p c) (.w bytes) = some (busPosOf q c) := by
  cases row <;> rfl

end BringUpRow

theorem OpEffect.ph_advance {s t : State} {i : Instr} (h : OpEffect s i t) (hi : i ≠ .reset) :
    t.ph = s.ph ∨ phaseRank t.ph = phaseRank s.ph + 1 := by
  cases h with
  | reset => exact absurd rfl hi
  | bringUpWrite hph row =>
    subst hph
    exact .inr row.rank_succ
  | identRead hph | classify _ hph | start hph _ | identFailure hph _ =>
    right
    rw [hph]
    rfl
  | _ => exact .inl rfl

/-- No row stands after the last ones, so an advance by at most one row leaves them in place. -/
theorem ph_stays_of_last {p q : Phase} (h : q = p ∨ phaseRank q = phaseRank p + 1) (hp : phaseRank p = 8) :
    q = p := by
  have := phaseRank_le q
  exact h.resolve_right (by omega)

/-- Settles O52, from the advance by at most one row: `PH_RUN` and `PH_FAIL` are the last rows. -/
theorem phaseAdvancesByOneRow : Obligations.PhaseAdvancesByOneRow := by
  intro i s t h hi
  have hadv := (OpEffect.of_exec h).ph_advance hi
  have hstays (hlast : phaseRank s.ph = 8) : t.ph = s.ph := ph_stays_of_last hadv hlast
  exact ⟨hadv, fun hrun => (hstays (by rw [hrun]; rfl)).trans hrun,
    fun hfail => (hstays (by rw [hfail]; rfl)).trans hfail⟩

end Sys2Proof.Proofs
end

section
/-! PROOFS. What every step keeps (10_state.md R41): the control state, the filter state with the published and
report fields, and the bus history's place in the protocol (R44). One induction step for all of them
(`step_keeps`); then each invariant over the effects of the operations (`OpEffect`). -/

namespace Sys2Proof.Proofs

open Sys2Proof Sys2Proof.Machine Sys2Proof.Laws

/-! ### Steps -/

/-- Settles O6: an empty schedule decodes to nothing, so the step is the scheduled one. -/
theorem stepRunsTheScheduledOperation : Obligations.StepRunsTheScheduledOperation := by
  intro s i rest hdec
  have hne : s.sched ≠ [] := by
    intro hnil
    rw [hnil] at hdec
    cases hdec
  rw [step_scheduled hne, scheduledStep, fetch_ok.2 ⟨rest, hdec, rfl⟩]

/-- What does not depend on the schedule or the choice counter, and is kept by every operation and by a request,
is kept by every step. -/
theorem step_keeps {P : State → Prop} (hsched : ∀ s bs, P s → P { s with sched := bs })
    (hctr : ∀ s n, P s → P { s with freeCtr := n }) (hreq : ∀ s, P s → P (raiseRdReq s))
    (hop : ∀ s t i, OpEffect s i t → P s → P t) {s t : State} (hs : P s) (h : step s = .next t) : P t := by
  obtain ⟨i, rest, -, hex⟩ | ⟨-, i, hex⟩ | ⟨-, rfl⟩ := step_next h
  · exact hop _ _ _ (.of_exec hex) (hsched s rest hs)
  · exact hop _ _ _ (.of_exec hex) (hctr s _ hs)
  · exact hreq _ (hctr s _ hs)

/-! ### The control state

Each clause first says what a change of phase outside `PH_RUN` does to it: so runs the whole of bring-up. -/

section Control

variable {s t : State} {i : Instr}

theorem maskMatchesRead_setPhase (h : MaskMatchesRead s) (hne : s.ph ≠ .run) (p : Phase) :
    MaskMatchesRead { s with ph := p } := by
  obtain ⟨hiff, hrun⟩ := h
  exact ⟨hiff, fun hmask => absurd (hrun hmask) hne⟩

theorem timerMatchesPhase_setPhase (h : TimerMatchesPhase s) (hne : s.ph ≠ .run) {p : Phase} (hp : p ≠ .run) :
    TimerMatchesPhase { s with ph := p } := by
  obtain ⟨hiff, hpend⟩ := h
  exact ⟨⟨fun hen => absurd (hiff.1 hen) hne, fun hrun => absurd hrun hp⟩, hpend⟩

theorem cycleExcludesHold_setPhase (h : CycleExcludesHold s) (hne : s.ph ≠ .run) (p : Phase) :
    CycleExcludesHold { s with ph := p } :=
  fun hcyc => absurd (h hcyc).1 hne

theorem OpEffect.keeps_maskMatchesRead (h : OpEffect s i t) (hs : MaskMatchesRead s) : MaskMatchesRead t := by
  cases h with
  | reset => exact ⟨by simp, by simp⟩
  | bringUpWrite hph row =>
    subst hph
    exact maskMatchesRead_setPhase hs row.ne_run.1 _
  | identRead hph | classify _ hph | start hph _ | identFailure hph _ =>
    exact maskMatchesRead_setPhase hs (by simp [hph]) _
  | hold hph => exact ⟨by simp, fun _ => hph⟩
  | release => exact ⟨by simp, by simp⟩
  | rdx hseq | rdy hseq | rdz hseq =>
    obtain ⟨hiff, hrun⟩ := hs
    exact ⟨by simp [hiff, hseq], hrun⟩
  | _ => exact hs

theorem OpEffect.keeps_timerMatchesPhase (h : OpEffect s i t) (hs : TimerMatchesPhase s) : TimerMatchesPhase t := by
  cases h with
  | reset => exact ⟨by simp, by simp⟩
  | bringUpWrite hph row =>
    subst hph
    exact timerMatchesPhase_setPhase hs row.ne_run.1 row.ne_run.2
  | identRead hph | classify _ hph | identFailure hph _ =>
    exact timerMatchesPhase_setPhase hs (by simp [hph]) (by simp)
  | start => exact ⟨by simp, by simp⟩
  | tick hen => exact ⟨hs.1, fun _ => hen⟩
  | cycle | read => exact ⟨hs.1, by simp⟩
  | _ => exact hs

/-- A cycle begins only where no hold is on, which `MASK` tells (R140). -/
theorem cycleReady_excludesHold (hmask : MaskMatchesRead s) (hready : cycleReady s = true) :
    s.ph = .run ∧ s.rseq = .idle := by
  obtain ⟨hrun, -, hoff, -⟩ := cycleReady_iff.1 hready
  obtain ⟨hiff, -⟩ := hmask
  exact ⟨hrun, by simpa [hoff] using hiff⟩

theorem OpEffect.keeps_cycleExcludesHold (h : OpEffect s i t) (hmask : MaskMatchesRead s) (hs : CycleExcludesHold s) :
    CycleExcludesHold t := by
  cases h with
  | reset => exact fun hcyc => absurd rfl hcyc
  | bringUpWrite hph row =>
    subst hph
    exact cycleExcludesHold_setPhase hs row.ne_run.1 _
  | identRead hph | classify _ hph | start hph _ | identFailure hph _ =>
    exact cycleExcludesHold_setPhase hs (by simp [hph]) _
  | hold _ _ hidle => exact fun hcyc => absurd hidle hcyc
  | rdx hseq | rdy hseq | rdz hseq | release hseq =>
    exact fun hcyc => absurd (hs hcyc).2 (by simp [hseq])
  | cycle | publish => exact fun hcyc => absurd rfl hcyc
  | read hready =>
    have hboth := cycleReady_excludesHold hmask hready
    exact fun _ => hboth
  | request hpos | validate hpos | unpack hpos _ | carry hpos _ | store hpos | average hpos _ | pass hpos _ =>
    exact fun _ => hs (by simp [hpos])
  | _ => exact hs

/-- A change of phase within bring-up, with the identity flag still down before the classification. -/
theorem indicatorMatchesPhase_bringUp (hs : IndicatorMatchesPhase s) (hrank : phaseRank s.ph < 8)
    (hnext : phaseRank t.ph < 8) (hind : t.indMode = s.indMode)
    (hgen : phaseRank t.ph < 4 → t.genuine = false) : IndicatorMatchesPhase t := by
  obtain ⟨hnormal, hfail, -, -, -⟩ := hs
  have hnot := ne_last_of_phaseRank_lt hrank
  have hnot' := ne_last_of_phaseRank_lt hnext
  simpa [IndicatorMatchesPhase, hind, hnormal, hfail, hnot, hnot'] using hgen

theorem OpEffect.keeps_indicatorMatchesPhase (h : OpEffect s i t) (hs : IndicatorMatchesPhase s) :
    IndicatorMatchesPhase t := by
  cases h with
  | reset => simp [IndicatorMatchesPhase]
  | bringUpWrite hph row =>
    subst hph
    have hrank := row.rank_succ
    have hlt := row.rank_lt
    have ⟨_, _, _, _, hdown⟩ := hs
    exact indicatorMatchesPhase_bringUp hs (by omega) hlt rfl fun hfour => hdown (by simp at hfour; omega)
  | identRead hph =>
    have ⟨_, _, _, _, hdown⟩ := hs
    exact indicatorMatchesPhase_bringUp hs (by simp [hph, phaseRank]) (by simp [phaseRank]) rfl
      fun _ => hdown (by simp [hph, phaseRank])
  | classify _ hph =>
    exact indicatorMatchesPhase_bringUp hs (by simp [hph, phaseRank]) (by simp [phaseRank]) rfl
      fun hfour => by simp [phaseRank] at hfour
  | start _ hg => simp [IndicatorMatchesPhase, hg, phaseRank]
  | identFailure _ hg => simp [IndicatorMatchesPhase, hg]
  | _ => exact hs

theorem OpEffect.keeps_controlInv (h : OpEffect s i t) (hs : ControlInv s) : ControlInv t := by
  obtain ⟨hmask, htimer, hcycle, hind⟩ := hs
  exact ⟨h.keeps_maskMatchesRead hmask, h.keeps_timerMatchesPhase htimer, h.keeps_cycleExcludesHold hmask hcycle,
    h.keeps_indicatorMatchesPhase hind⟩

end Control

/-- Settles O56: no clause reads the schedule, the choice counter or the request line. -/
theorem stepKeepsTheControlState : Obligations.StepKeepsTheControlState := fun _ _ =>
  step_keeps (P := ControlInv) (fun _ _ hs => hs) (fun _ _ hs => hs) (fun _ hs => hs)
    fun _ _ _ => OpEffect.keeps_controlInv

/-! ### The filter state -/

section Filter

variable {s t : State} {i : Instr}

theorem filterStateOk_ma {k : Nat} (hpol : s.cfg.policy = .ma k) :
    filterStateOk s = true ↔
      Memory.wf (depth (.ma k)) s.buf = true ∧ s.cur < depth (.ma k) ∧ s.lat = lanesOf 0 := by
  simp [filterStateOk, hpol, and_assoc]

theorem filterStateOk_pt (hpol : s.cfg.policy = .pt) :
    filterStateOk s = true ↔ s.buf = lanesOf [] ∧ s.cur = 0 := by
  simp [filterStateOk, hpol]

theorem filterStateOk_resetState (s : State) : filterStateOk (resetState s) = true := by
  cases hpol : s.cfg.policy with
  | ma k => exact (filterStateOk_ma (s := resetState s) hpol).2 ⟨reset_buf_wf _, Nat.two_pow_pos _, rfl⟩
  | pt => exact (filterStateOk_pt (s := resetState s) hpol).2 ⟨rfl, rfl⟩

/-- Storing a sample keeps the form: under `MA` slot `CUR` and the cursor (R171, R172), under `PT` the
latest-sample slot (R176). -/
theorem filterStateOk_of_stored (v : Lanes Axis) (hs : filterStateOk s = true) (hcfg : t.cfg = s.cfg)
    (hma : ∀ k, s.cfg.policy = .ma k →
      t.buf = writeSlot s.buf s.cur v ∧ t.cur = nextSlot (.ma k) s.cur ∧ t.lat = s.lat)
    (hpt : s.cfg.policy = .pt → t.buf = s.buf ∧ t.cur = s.cur) : filterStateOk t = true := by
  cases hpol : s.cfg.policy with
  | ma k =>
    obtain ⟨hbuf, hcur, hlat⟩ := hma k hpol
    obtain ⟨hwf, hlt, hzero⟩ := (filterStateOk_ma hpol).1 hs
    refine (filterStateOk_ma (hcfg ▸ hpol)).2 ⟨?_, ?_, hlat.trans hzero⟩
    · exact hbuf ▸ writeSlot_wf _ _ _ v hlt hwf
    · exact hcur ▸ nextSlot_lt _ _
  | pt =>
    obtain ⟨hbuf, hcur⟩ := hpt hpol
    obtain ⟨hempty, hzero⟩ := (filterStateOk_pt hpol).1 hs
    exact (filterStateOk_pt (hcfg ▸ hpol)).2 ⟨hbuf.trans hempty, hcur.trans hzero⟩

theorem OpEffect.keeps_filterStateOk (h : OpEffect s i t) (hs : filterStateOk s = true) : filterStateOk t = true := by
  cases h with
  | reset => exact filterStateOk_resetState s
  | store =>
    refine filterStateOk_of_stored s.samp hs rfl (fun k hpol => ?_) fun hpol => ?_
    · simp [microStore_ma hpol]
    · simp [microStore_pt hpol]
  | @cycle d =>
    refine filterStateOk_of_stored (cycleBody d s).samp hs rfl (fun k hpol => ?_) fun hpol => ?_
    · obtain ⟨hbuf, hcur, hlat, -, -⟩ := cycleBody_ma (d := d) hpol
      exact ⟨hbuf, hcur, hlat⟩
    · obtain ⟨hbuf, hcur, -, -, -⟩ := cycleBody_pt (d := d) hpol
      exact ⟨hbuf, hcur⟩
  | _ => exact hs

/-! ### The published and report fields -/

/-- A published field is an axis value extended by zeros (R97, R210). -/
theorem publishedField_lt (v : Axis) : (publishedField v).toNat < 1024 := by
  rw [publishedField, BitVec.toNat_setWidth_of_le (by decide)]
  exact v.isLt

/-- The last micro-operation of the cycle publishes its filter result (R146, R210). -/
theorem cycleBody_pub (d : Frame) (s : State) :
    (cycleBody d s).pub = ⟨publishedField (cycleBody d s).filt.x, publishedField (cycleBody d s).filt.y,
      publishedField (cycleBody d s).filt.z⟩ := rfl

theorem OpEffect.keeps_fieldsInRange (h : OpEffect s i t) (hs : FieldsInRange s) : FieldsInRange t := by
  have ⟨⟨px, py, pz⟩, rx, ry, rz⟩ := hs
  cases h with
  | reset => simp [FieldsInRange, lanesOf]
  | publish => exact ⟨⟨publishedField_lt _, publishedField_lt _, publishedField_lt _⟩, rx, ry, rz⟩
  | cycle =>
    refine ⟨?_, rx, ry, rz⟩
    simp only [cycleBody_pub]
    exact ⟨publishedField_lt _, publishedField_lt _, publishedField_lt _⟩
  | rdx => exact ⟨⟨px, py, pz⟩, px, ry, rz⟩
  | rdy => exact ⟨⟨px, py, pz⟩, rx, py, rz⟩
  | rdz => exact ⟨⟨px, py, pz⟩, rx, ry, pz⟩
  | _ => exact hs

end Filter

/-- Settles O57: a store keeps the filter state's form, and only a publish and the consumer's reads write fields. -/
theorem stepKeepsTheFilterStateInRange : Obligations.StepKeepsTheFilterStateInRange := fun _ _ hfilter hfields =>
  step_keeps (P := fun s => filterStateOk s = true ∧ FieldsInRange s)
    (fun _ _ hs => hs) (fun _ _ hs => hs) (fun _ hs => hs)
    (fun _ _ _ h hs => ⟨h.keeps_filterStateOk hs.1, h.keeps_fieldsInRange hs.2⟩) ⟨hfilter, hfields⟩

/-! ### The bus history -/

section Bus

variable {s t : State} {i : Instr}

theorem busScan_append_singleton (p : BusPos) (es : List BusEvent) (e : BusEvent) :
    busScan p (es ++ [e]) = (busScan p es).bind (busNext · e) := by
  induction es generalizing p with
  | nil =>
    simp only [List.nil_append, busScan, Option.bind_some]
    cases busNext p e <;> rfl
  | cons a es ih =>
    simp only [List.cons_append, busScan]
    cases busNext p a with
    | none => rfl
    | some p' => exact ih p'

/-- One more transaction, the one that comes next, moves the bus history on with the producer. -/
theorem busProtocolOk_of_transaction {e : BusEvent} (hs : BusProtocolOk s) (hlog : t.busLog = s.busLog ++ [e])
    (hnext : busNext (busPosOf s.ph s.cyc) e = some (busPosOf t.ph t.cyc)) : BusProtocolOk t := by
  rw [BusProtocolOk, hlog, busScan_append_singleton, hs]
  exact hnext

/-- The bus history stays where the producer's move does not change its position. -/
theorem busProtocolOk_of_same_log (hs : BusProtocolOk s) (hlog : t.busLog = s.busLog)
    (hpos : busPosOf t.ph t.cyc = busPosOf s.ph s.cyc) : BusProtocolOk t := by
  rw [BusProtocolOk, hlog, hpos]
  exact hs

/-- The read that begins a cycle, after which the next request is owed (R141). -/
theorem busProtocolOk_microRead {d : Frame} (hs : BusProtocolOk s) (hready : cycleReady s = true) :
    BusProtocolOk (microRead d (enterCycle s)) := by
  obtain ⟨hrun, -, -, hidle⟩ := cycleReady_iff.1 hready
  refine busProtocolOk_of_transaction (e := .r d) hs rfl ?_
  simp [hrun, hidle, busPosOf, busNext]

/-- The request for the next sample (R142). -/
theorem busProtocolOk_microReq (hs : BusProtocolOk s) (hrun : s.ph = .run) (hcyc : s.cyc = .req) :
    BusProtocolOk (microReq s) := by
  refine busProtocolOk_of_transaction (e := .w [0x00]) hs rfl ?_
  simp [hrun, hcyc, busPosOf, busNext]

theorem OpEffect.keeps_busProtocolOk (h : OpEffect s i t) (hctl : ControlInv s) (hs : BusProtocolOk s) :
    BusProtocolOk t := by
  obtain ⟨-, -, hexcl, -⟩ := hctl
  have run_of_pos {c : CyclePos} (hcyc : s.cyc = c) (hc : c ≠ .idle) : s.ph = .run :=
    (hexcl (hcyc ▸ hc)).1
  cases h with
  | reset => rfl
  | bringUpWrite hph row =>
    subst hph
    exact busProtocolOk_of_transaction hs rfl (row.busNext_write s.cyc)
  | @identRead _ d hph =>
    exact busProtocolOk_of_transaction (e := .r d) hs rfl (by rw [hph]; rfl)
  | classify _ hph | identFailure hph _ =>
    exact busProtocolOk_of_same_log hs rfl (by rw [hph]; rfl)
  | start hph _ =>
    have hidle : s.cyc = .idle := Classical.byContradiction fun hc =>
      Phase.noConfusion (hph.symm.trans (hexcl hc).1)
    exact busProtocolOk_of_same_log hs rfl (by simp [hph, hidle, busPosOf])
  | @cycle d hready =>
    obtain ⟨hrun, -, -, hidle⟩ := cycleReady_iff.1 hready
    have hreq := busProtocolOk_microReq (busProtocolOk_microRead (d := d) hs hready) hrun rfl
    exact busProtocolOk_of_same_log hreq rfl (by simp [hrun, busPosOf])
  | read hready => exact busProtocolOk_microRead hs hready
  | request hcyc => exact busProtocolOk_microReq hs (run_of_pos hcyc (by simp)) hcyc
  | validate hcyc | unpack hcyc _ | carry hcyc _ | store hcyc | average hcyc _ | pass hcyc _ | publish hcyc =>
    exact busProtocolOk_of_same_log hs rfl (by simp [run_of_pos hcyc (by simp), hcyc, busPosOf])
  | _ => exact hs

end Bus

/-- Settles O59, with the control state, which says that a cycle is in progress only in `PH_RUN`. -/
theorem stepKeepsTheBusProtocol : Obligations.StepKeepsTheBusProtocol := fun _ _ hctl hbus h =>
  (step_keeps (P := fun s => ControlInv s ∧ BusProtocolOk s)
    (fun _ _ hs => hs) (fun _ _ hs => hs) (fun _ hs => hs)
    (fun _ _ _ h hs => ⟨h.keeps_controlInv hs.1, h.keeps_busProtocolOk hs.1 hs.2⟩) ⟨hctl, hbus⟩ h).2

/-! ### Reset -/

theorem historiesOk_reset : historiesOk State.reset = true := by
  have hzero : fitsBits Config.build.iirW 0 = true := by simp [fitsBits]
  simp [historiesOk, historyFits, State.reset, zeroHistory, hzero]

/-- Settles O55: the control state and the fields are literals; the filter state and the IIR result are taken
for every configuration. -/
theorem resetMeetsTheInvariants : Obligations.ResetMeetsTheInvariants :=
  ⟨by decide, by decide, filterStateOk_resetState State.reset, historiesOk_reset, trivial, by decide, rfl⟩

end Sys2Proof.Proofs
end

section
/-! PROOFS. When a report is handed out (10_state.md R26, 45_sample_latch.md R217, R226,
70_reset_and_hazards.md R303): the mark on `REP_*` and `rd_done` over the effects of the operations. -/

namespace Sys2Proof.Proofs

open Sys2Proof Sys2Proof.Machine Sys2Proof.Laws

variable {s t : State} {i : Instr}

/-- A report is handed out exactly where `REP_*` is marked as written and `rd_done` is up, and it is `REP_*` with
the constant button byte. -/
theorem readReport_eq_some {p : Lanes Field × Byte} :
    readReport s = some p ↔ (s.repWritten = true ∧ s.rdDone = true) ∧ p = (s.rep, 0x00) := by
  simp only [readReport, Option.ite_none_right_eq_some, Bool.and_eq_true, Option.some.injEq, @eq_comm _ _ p]
  rfl

theorem readReport_of_unwritten (h : s.repWritten = false) : readReport s = none := by
  simp [readReport, portRep, h]

theorem readReport_of_not_done (h : s.rdDone = false) : readReport s = none := by
  simp [readReport, portRdDone, h]

/-- Nothing but `RELEASE` ends the time before the first report (R26). -/
theorem OpEffect.keeps_unwritten (h : OpEffect s i t) (hi : i ≠ .release) (hs : s.repWritten = false) :
    t.repWritten = false := by
  cases h with
  | reset => rfl
  | release => exact absurd rfl hi
  | _ => exact hs

/-- Outside a `latest()` no operation but `HOLD` and `RESET` touches the report: the reads and `RELEASE` have
their place inside one. -/
theorem OpEffect.report_frame (h : OpEffect s i t) (hidle : s.rseq = .idle) (hhold : i ≠ .hold)
    (hreset : i ≠ .reset) : t.rep = s.rep ∧ t.repWritten = s.repWritten ∧ t.rdDone = s.rdDone := by
  cases h with
  | reset => exact absurd rfl hreset
  | hold => exact absurd rfl hhold
  | rdx hseq | rdy hseq | rdz hseq | release hseq => exact ReadSeq.noConfusion (hidle.symm.trans hseq)
  | _ => exact ⟨rfl, rfl, rfl⟩

theorem readReport_exec_reset (h : exec .reset s = .next t) : (portRep t).2 = false ∧ readReport t = none := by
  cases h
  exact ⟨rfl, readReport_of_unwritten rfl⟩

/-- `HOLD` lowers `rd_done` (R226). -/
theorem readReport_exec_hold (h : exec .hold s = .next t) : readReport t = none := by
  obtain ⟨-, rfl⟩ := whenEnabled_next.1 h
  exact readReport_of_not_done rfl

/-- A request that is kept lowers `rd_done` (R226, R227). -/
theorem readReport_raiseRdReq (h : s.ph ≠ .fail) : readReport (raiseRdReq s) = none :=
  readReport_of_not_done (by simp [h])

/-- A report is handed out only outside a `latest()` (R303). -/
theorem idle_of_readReport {p : Lanes Field × Byte} (hc : ReportComplete s) (hp : readReport s = some p) :
    s.rseq = .idle := by
  obtain ⟨⟨-, hdone⟩, -⟩ := readReport_eq_some.1 hp
  exact (hc hdone).1

theorem readReport_exec_of_some {p : Lanes Field × Byte} (hc : ReportComplete s) (hp : readReport s = some p)
    (hhold : i ≠ .hold) (hreset : i ≠ .reset) (h : exec i s = .next t) : readReport t = some p := by
  have hidle := idle_of_readReport hc hp
  obtain ⟨hrep, hwritten, hdone⟩ := (OpEffect.of_exec h).report_frame hidle hhold hreset
  rw [readReport_eq_some, hrep, hwritten, hdone]
  exact readReport_eq_some.1 hp

/-- Settles O43, from when a report is handed out and what the operations leave of it. -/
theorem reportIsWithheldUntilTheFirstRelease : Obligations.ReportIsWithheldUntilTheFirstRelease := by
  refine ⟨fun _ _ => readReport_exec_reset, fun s t i hs hi h => ?_, fun s p hc hp => ?_,
    fun _ _ _ _ => readReport_exec_of_some, fun _ => readReport_raiseRdReq, fun _ _ => readReport_exec_hold⟩
  · have hunwritten := (OpEffect.of_exec h).keeps_unwritten hi hs
    exact ⟨hunwritten, readReport_of_unwritten hunwritten⟩
  · exact ⟨idle_of_readReport hc hp, (readReport_eq_some.1 hp).2⟩

end Sys2Proof.Proofs
end

section
/-! PROOFS. The consumer against the producer (20_memory.md R74 (g)): two states that agree on what the consumer
reads stay so over each event of `latest()`, whatever the producer holds in its own registers. -/

namespace Sys2Proof.Proofs

open Sys2Proof Sys2Proof.Machine Sys2Proof.Laws

/-- Two states agree on the published sample, on the consumer's registers, and on the phase and the position in a
cycle, which `HOLD` is enabled by (R212). -/
structure AgreeForConsumer (s s' : State) : Prop where
  pub : s.pub = s'.pub
  rep : s.rep = s'.rep
  rseq : s.rseq = s'.rseq
  mask : s.mask = s'.mask
  ph : s.ph = s'.ph
  cyc : s.cyc = s'.cyc

theorem mem_latestOps {i : Instr} :
    i ∈ latestOps ↔ i = .hold ∨ i = .rdx ∨ i = .rdy ∨ i = .rdz ∨ i = .release := by
  simp [latestOps]

namespace AgreeForConsumer

variable {s s' t u u' : State}

/-- A guarded event answers states that agree where its guards are equal and its updates agree. -/
theorem of_whenEnabled {g g' : Bool} {why : Guard} (hg : g = g') (h : whenEnabled g why u = .next t)
    (hu : AgreeForConsumer u u') : ∃ t', whenEnabled g' why u' = .next t' ∧ AgreeForConsumer t t' := by
  obtain ⟨rfl, rfl⟩ := whenEnabled_next.1 h
  exact ⟨u', whenEnabled_next.2 ⟨hg.symm, rfl⟩, hu⟩

theorem holdReady_eq (hs : AgreeForConsumer s s') : holdReady s = holdReady s' := by
  simp only [holdReady, hs.rseq, hs.ph, hs.cyc]

/-- The place of an event in the program order of `latest()` (R74 (d)). -/
theorem place_eq (hs : AgreeForConsumer s s') (q : ReadSeq) : (s.rseq == q) = (s'.rseq == q) := by
  rw [hs.rseq]

/-- A report made of the published sample and the report before it, as `RDX`, `RDY` and `RDZ` make one. -/
theorem of_read (hs : AgreeForConsumer s s') (f : Lanes Field → Lanes Field → Lanes Field) (q : ReadSeq) :
    AgreeForConsumer { s with rep := f s.pub s.rep, rseq := q } { s' with rep := f s'.pub s'.rep, rseq := q } :=
  { hs with rep := congrArg₂ f hs.pub hs.rep, rseq := rfl }

/-- An event of `latest()` that is enabled in one of the two states is enabled in the other, and leaves them in
agreement. -/
theorem exec_latestOps {i : Instr} (hi : i ∈ latestOps) (hs : AgreeForConsumer s s')
    (h : exec i s = .next t) : ∃ t', exec i s' = .next t' ∧ AgreeForConsumer t t' := by
  rcases mem_latestOps.1 hi with rfl | rfl | rfl | rfl | rfl
  · exact of_whenEnabled hs.holdReady_eq h { hs with mask := rfl, rseq := rfl }
  · exact of_whenEnabled (hs.place_eq .h0) h (hs.of_read (fun p r => { r with x := p.x }) .h1)
  · exact of_whenEnabled (hs.place_eq .h1) h (hs.of_read (fun p r => { r with y := p.y }) .h2)
  · exact of_whenEnabled (hs.place_eq .h2) h (hs.of_read (fun p r => { r with z := p.z }) .h3)
  · exact of_whenEnabled (hs.place_eq .h3) h { hs with mask := rfl, rseq := rfl }

end AgreeForConsumer

/-- Settles O45: the events of `latest()` keep two states in agreement. -/
theorem consumerSeesOnlyThePublishedSample : Obligations.ConsumerSeesOnlyThePublishedSample := by
  intro s s' t i hi hpub hrep hrseq hmask hph hcyc h
  obtain ⟨t', ht', agree⟩ :=
    AgreeForConsumer.exec_latestOps hi ⟨hpub, hrep, hrseq, hmask, hph, hcyc⟩ h
  exact ⟨t', ht', agree.rep.symm, agree.rseq.symm, agree.mask.symm, agree.pub.symm⟩

end Sys2Proof.Proofs
end

section
/-! PROOFS. The line of an operation (30_encoding.md R90 to R100): an operation that is well formed decodes from its
line, and whatever decodes is the line of a well-formed operation. -/

namespace Sys2Proof.Proofs

open Sys2Proof Sys2Proof.Laws

/-! ### Fields of a sample frame (R91, R94) -/

/-- The value of two fields side by side, the upper one first (R91). -/
theorem toNat_append_eq {m n : Nat} (a : BitVec m) (b : BitVec n) :
    (a ++ b).toNat = a.toNat * 2 ^ n + b.toNat := by
  rw [BitVec.toNat_append, ← Nat.shiftLeft_add_eq_or_of_lt b.isLt, Nat.shiftLeft_eq]

/-- The value of a field cut out of a word (R91). -/
theorem toNat_extractLsb'_eq {w : Nat} (x : BitVec w) (start len : Nat) :
    (x.extractLsb' start len).toNat = x.toNat / 2 ^ start % 2 ^ len := by
  rw [BitVec.extractLsb'_toNat, Nat.shiftRight_eq_div_pow]

section Byte5

variable (u7 : BitVec 1) (zl yl xl : BitVec 2) (ub : BitVec 1)

/-- The weights of the fields of byte 5 (R94). -/
theorem toNat_byte5Of : (byte5Of u7 zl yl xl ub).toNat =
    u7.toNat * 128 + zl.toNat * 32 + yl.toNat * 8 + xl.toNat * 2 + ub.toNat := by
  simp only [byte5Of, toNat_append_eq]
  omega

/-- The fields of byte 5 are the ones it is made of (R94). -/
theorem fields_byte5Of :
    u7Of (byte5Of u7 zl yl xl ub) = u7 ∧ zlOf (byte5Of u7 zl yl xl ub) = zl ∧
    ylOf (byte5Of u7 zl yl xl ub) = yl ∧ xlOf (byte5Of u7 zl yl xl ub) = xl ∧
    ubOf (byte5Of u7 zl yl xl ub) = ub := by
  simp only [u7Of, zlOf, ylOf, xlOf, ubOf, ← BitVec.toNat_inj, toNat_extractLsb'_eq, toNat_byte5Of]
  omega

end Byte5

/-- Byte 5 is made of its fields: none of its bits is outside them (R94). -/
theorem byte5Of_fields (b : Byte) : byte5Of (u7Of b) (zlOf b) (ylOf b) (xlOf b) (ubOf b) = b := by
  apply BitVec.eq_of_toNat_eq
  simp only [toNat_byte5Of, u7Of, zlOf, ylOf, xlOf, ubOf, toNat_extractLsb'_eq]
  omega

/-- Byte 5 has a value exactly if its fields are those of the value (R94). -/
theorem byte5Of_eq_iff {u7 : BitVec 1} {zl yl xl : BitVec 2} {ub : BitVec 1} {b : Byte} :
    byte5Of u7 zl yl xl ub = b ↔ u7 = u7Of b ∧ zl = zlOf b ∧ yl = ylOf b ∧ xl = xlOf b ∧ ub = ubOf b := by
  constructor
  · rintro rfl
    simp [fields_byte5Of]
  · rintro ⟨rfl, rfl, rfl, rfl, rfl⟩
    exact byte5Of_fields b

/-- The weights of the bytes of a frame's word (R91). -/
theorem toNat_w48OfFrame (f : Frame) : (w48OfFrame f).toNat =
    f.b0.toNat * 2 ^ 40 + f.b1.toNat * 2 ^ 32 + f.b2.toNat * 2 ^ 24 + f.b3.toNat * 2 ^ 16 +
      f.b4.toNat * 2 ^ 8 + f.b5.toNat := by
  simp only [w48OfFrame, toNat_append_eq]
  omega

/-! ### The two classes of each frame (R95, R96) -/

theorem isSpike_iff {f : Frame} : isSpike f = true ↔ f.b4 = 0xFE ∧ f.b5 = 0xFE := by
  simp [isSpike]

theorem isGenuine_iff {f : Frame} :
    isGenuine f = true ↔ f.b2 = 0x9A ∧ f.b3 = 0x1E ∧ f.b4 = 0xFE ∧ f.b5 = 0xFE := by
  simp [isGenuine, and_assoc]

/-- The fields of an `F_VALID` word are well formed exactly if its frame is no `F_SPIKE` (R95). -/
theorem validFieldsOk_iff (u0 u1 xh yh : Byte) {zh : Byte} {u7 : BitVec 1} {zl yl xl : BitVec 2} {ub : BitVec 1} :
    validFieldsOk zh u7 zl yl xl ub = true ↔ ¬isSpike ⟨u0, u1, xh, yh, zh, byte5Of u7 zl yl xl ub⟩ = true := by
  have hfe : byte5Of u7 zl yl xl ub = 0xFE ↔ u7 = 1 ∧ zl = 3 ∧ yl = 3 ∧ xl = 3 ∧ ub = 0 := byte5Of_eq_iff
  rw [isSpike_iff, hfe]
  simp [validFieldsOk, imp_iff_not_or, or_assoc]

/-- The bytes of an `ID_OTHER` word are well formed exactly if its frame is not the genuine one (R96). -/
theorem otherFieldsOk_iff (i0 i1 : Byte) {i2 i3 i4 i5 : Byte} :
    otherFieldsOk i2 i3 i4 i5 = true ↔ ¬isGenuine ⟨i0, i1, i2, i3, i4, i5⟩ = true := by
  rw [Bool.not_eq_true, ← Bool.not_eq_true']
  rfl

/-- The mask and match of `F_SPIKE` (R95): the word under 0xFFFF is its two low bytes. -/
theorem spikeMask_iff (f : Frame) :
    w48OfFrame f &&& 0x00000000FFFF = 0x00000000FEFE ↔ f.b4 = 0xFE ∧ f.b5 = 0xFE := by
  have hmask : (w48OfFrame f &&& 0x00000000FFFF).toNat = (w48OfFrame f).toNat % 2 ^ 16 :=
    Nat.and_two_pow_sub_one_eq_mod _ 16
  simp only [← BitVec.toNat_inj, hmask, toNat_w48OfFrame, BitVec.reduceToNat]
  omega

theorem classifySample_of_spike {f : Frame} (h : isSpike f = true) :
    classifySample f = .fSpike f.b0 f.b1 f.b2 f.b3 := if_pos h

theorem classifySample_of_not_spike {f : Frame} (h : ¬isSpike f = true) :
    classifySample f =
      .fValid f.b0 f.b1 f.b2 f.b3 f.b4 (u7Of f.b5) (zlOf f.b5) (ylOf f.b5) (xlOf f.b5) (ubOf f.b5) := if_neg h

theorem classifyId_of_genuine {f : Frame} (h : isGenuine f = true) :
    classifyId f = .idGenuine f.b0 f.b1 := if_pos h

theorem classifyId_of_not_genuine {f : Frame} (h : ¬isGenuine f = true) :
    classifyId f = .idOther f.b0 f.b1 f.b2 f.b3 f.b4 f.b5 := if_neg h

/-- A sample frame is read as the `F_VALID` whose fields it is made of, where these do not spell the sentinel. -/
theorem classifySample_fValid {u0 u1 xh yh zh : Byte} {u7 : BitVec 1} {zl yl xl : BitVec 2} {ub : BitVec 1}
    (h : validFieldsOk zh u7 zl yl xl ub = true) :
    classifySample ⟨u0, u1, xh, yh, zh, byte5Of u7 zl yl xl ub⟩ =
      .fValid u0 u1 xh yh zh u7 zl yl xl ub := by
  obtain ⟨hu7, hzl, hyl, hxl, hub⟩ := fields_byte5Of u7 zl yl xl ub
  rw [classifySample_of_not_spike ((validFieldsOk_iff ..).1 h), hu7, hzl, hyl, hxl, hub]

/-- An identification frame is read as the `ID_OTHER` of its bytes, where these are not the genuine ones. -/
theorem classifyId_idOther {i0 i1 i2 i3 i4 i5 : Byte} (h : otherFieldsOk i2 i3 i4 i5 = true) :
    classifyId ⟨i0, i1, i2, i3, i4, i5⟩ = .idOther i0 i1 i2 i3 i4 i5 :=
  classifyId_of_not_genuine ((otherFieldsOk_iff i0 i1).1 h)

/-! ### Operands of a line -/

@[simp] theorem takeFrame_bytesOfFrame (k : Frame → Instr) (f : Frame) (rest : List Byte) :
    takeFrame k (bytesOfFrame f ++ rest) = .ok (k f, rest) := rfl

theorem takeFrame_ok {k : Frame → Instr} {bs rest : List Byte} {i : Instr}
    (h : takeFrame k bs = .ok (i, rest)) : ∃ f, i = k f ∧ bs = bytesOfFrame f ++ rest := by
  unfold takeFrame at h
  split at h
  · cases h
    exact ⟨_, rfl, rfl⟩
  · cases h

/-- A sample is what its two bytes are read as. -/
theorem axis_of_bytes (x : Axis) :
    ((x.extractLsb' 8 2).setWidth 8).extractLsb' 0 2 ++ x.extractLsb' 0 8 = x := by
  apply BitVec.eq_of_toNat_eq
  simp only [toNat_append_eq, toNat_extractLsb'_eq, BitVec.toNat_setWidth]
  omega

/-- The upper byte of a sample holds two bits. -/
theorem highByte_of_axis (x : Axis) : ((x.extractLsb' 8 2).setWidth 8).extractLsb' 2 6 = 0 := by
  apply BitVec.eq_of_toNat_eq
  simp only [toNat_extractLsb'_eq, BitVec.toNat_setWidth, BitVec.reduceToNat]
  omega

/-- Two bytes are those of the sample they are read as, where the upper one holds two bits. -/
theorem bytesOfSample_append {hi lo : Byte} (h : hi.extractLsb' 2 6 = 0) :
    bytesOfSample (hi.extractLsb' 0 2 ++ lo) = [hi, lo] := by
  have hhi : hi.toNat / 2 ^ 2 % 2 ^ 6 = 0 := by rw [← toNat_extractLsb'_eq, h]; rfl
  simp only [bytesOfSample, List.cons.injEq, and_true, ← BitVec.toNat_inj, toNat_append_eq,
    toNat_extractLsb'_eq, BitVec.toNat_setWidth]
  omega

@[simp] theorem takeSample_bytesOfSample (k : Axis → Instr) (x : Axis) (rest : List Byte) :
    takeSample k (bytesOfSample x ++ rest) = .ok (k x, rest) := by
  simp [bytesOfSample, takeSample, highByte_of_axis, axis_of_bytes]

theorem takeSample_ok {k : Axis → Instr} {bs rest : List Byte} {i : Instr}
    (h : takeSample k bs = .ok (i, rest)) : ∃ x, i = k x ∧ bs = bytesOfSample x ++ rest := by
  unfold takeSample at h
  split at h
  next hi lo bs =>
    split at h
    next hzero =>
      cases h
      exact ⟨_, rfl, by rw [bytesOfSample_append (eq_of_beq hzero)]; rfl⟩
    next => cases h
  next => cases h

@[simp] theorem takeIir_operands (h : IirHistory) (x : Axis) (rest : List Byte) :
    takeIir (bytesOfHistory h ++ (bytesOfSample x ++ rest)) = .ok (.iirStep h x, rest) := by
  rw [takeIir, withHistory_bytesOfHistory, takeSample_bytesOfSample]

theorem takeIir_ok {bs rest : List Byte} {i : Instr} (h : takeIir bs = .ok (i, rest)) :
    ∃ hist x, i = .iirStep hist x ∧ bs = bytesOfHistory hist ++ (bytesOfSample x ++ rest) := by
  obtain ⟨hist, _, rfl, hsample⟩ := withHistory_ok h
  obtain ⟨x, rfl, rfl⟩ := takeSample_ok hsample
  exact ⟨hist, x, rfl, rfl⟩

/-! ### Every well-formed operation decodes from its line -/

/-- The line of a well-formed operation decodes to that operation, and leaves what stands after the line. Three
operations need more than their format and label: the two class rows of priority 2 their well-formedness,
`IIR_STEP` its codec. -/
theorem decode_encode {i : Instr} (rest : List Byte) (hwf : i.wf = true) :
    decode (encode i ++ rest) = .ok (i, rest) := by
  cases i with
  | fValid u0 u1 xh yh zh u7 zl yl xl ub =>
    exact congrArg (fun j => Except.ok (j, rest)) (classifySample_fValid hwf)
  | idOther i0 i1 i2 i3 i4 i5 => exact congrArg (fun j => Except.ok (j, rest)) (classifyId_idOther hwf)
  | iirStep h x =>
    rw [encode, List.cons_append, List.cons_append, List.append_assoc]
    exact takeIir_operands h x rest
  | _ => rfl

/-- Settles O1, operation by operation: the formats by their codes, the two classes of a frame by
well-formedness, the operands of `IIR_STEP` by the codec of the history. -/
theorem decodeOfEncodeIsTheOperation : Obligations.DecodeOfEncodeIsTheOperation :=
  fun _ rest hwf => decode_encode rest hwf

/-- Settles O3: each of the ten is the line of a well-formed operation. -/
theorem wordsOfTheSpecDecode : Obligations.WordsOfTheSpecDecode :=
  ⟨decode_encode [] (i := .bwInit) rfl, decode_encode [] (i := .bwIdq) rfl,
   decode_encode [] (i := .bwUnenc1) rfl, decode_encode [] (i := .bwUnenc2) rfl,
   decode_encode [] (i := .bwReq) rfl, decode_encode [] (i := .brFrame ⟨_, _, _, _, _, _⟩) rfl,
   decode_encode [] (i := .fSpike ..) rfl, decode_encode [] (i := .idGenuine ..) rfl,
   decode_encode [] (i := .tick) rfl, decode_encode [] (i := .cAvg) rfl⟩

/-- Settles O4: the mask covers the sentinel's two bytes, and the frame's class is what it is read as. -/
theorem sampleFrameHasOneOfTwoClasses : Obligations.SampleFrameHasOneOfTwoClasses := by
  intro f rest
  have hdecode : decode (3 :: bytesOfFrame f ++ rest) = .ok (classifySample f, rest) := rfl
  rw [hdecode, spikeMask_iff, ← isSpike_iff]
  refine ⟨Iff.rfl, fun hspike => ?_, fun hvalid => ?_⟩
  · rw [classifySample_of_spike hspike]
  · rw [classifySample_of_not_spike hvalid]
    refine ⟨_, _, _, _, _, rfl, ?_⟩
    rw [← toNat_byte5Of, byte5Of_fields]

/-! ### Whatever decodes is the line of a well-formed operation -/

/-- The bytes `bs` are the line of the well-formed operation `i`, and after it `rest`. -/
def IsLineOf (bs : List Byte) (i : Instr) (rest : List Byte) : Prop := i.wf = true ∧ bs = encode i ++ rest

theorem eq_ofNat_of_toNat {b : Byte} {n : Nat} (h : b.toNat = n) : b = BitVec.ofNat 8 n := by
  rw [← h, BitVec.ofNat_toNat, BitVec.setWidth_eq]

namespace IsLineOf

variable {bs rest : List Byte} {i : Instr}

/-- A sample frame is the line of its class (R94, R95). -/
theorem of_classifySample (f : Frame) (rest : List Byte) :
    IsLineOf (3 :: (bytesOfFrame f ++ rest)) (classifySample f) rest := by
  by_cases hspike : isSpike f = true
  · obtain ⟨h4, h5⟩ := isSpike_iff.1 hspike
    rw [classifySample_of_spike hspike]
    exact ⟨rfl, by simp [encode, bytesOfFrame, h4, h5]⟩
  · rw [classifySample_of_not_spike hspike]
    refine ⟨(validFieldsOk_iff f.b0 f.b1 f.b2 f.b3).2 ?_, ?_⟩
    · rwa [byte5Of_fields]
    · rw [encode, byte5Of_fields]
      rfl

/-- An identification frame is the line of its class (R96). -/
theorem of_classifyId (f : Frame) (rest : List Byte) :
    IsLineOf (4 :: (bytesOfFrame f ++ rest)) (classifyId f) rest := by
  by_cases hgenuine : isGenuine f = true
  · obtain ⟨h2, h3, h4, h5⟩ := isGenuine_iff.1 hgenuine
    rw [classifyId_of_genuine hgenuine]
    exact ⟨rfl, by simp [encode, bytesOfFrame, h2, h3, h4, h5]⟩
  · rw [classifyId_of_not_genuine hgenuine]
    exact ⟨(otherFieldsOk_iff f.b0 f.b1).2 hgenuine, rfl⟩

/-- A bus read is a line with its frame, whatever that is (R93). -/
theorem of_busRead (h : takeFrame .brFrame bs = .ok (i, rest)) : IsLineOf (2 :: bs) i rest := by
  obtain ⟨f, rfl, rfl⟩ := takeFrame_ok h
  exact ⟨rfl, rfl⟩

theorem of_sampleFrame (h : takeFrame classifySample bs = .ok (i, rest)) : IsLineOf (3 :: bs) i rest := by
  obtain ⟨f, rfl, rfl⟩ := takeFrame_ok h
  exact of_classifySample f rest

theorem of_idFrame (h : takeFrame classifyId bs = .ok (i, rest)) : IsLineOf (4 :: bs) i rest := by
  obtain ⟨f, rfl, rfl⟩ := takeFrame_ok h
  exact of_classifyId f rest

theorem of_decodeBusW1 (h : decodeBusW1 bs = .ok (i, rest)) : IsLineOf (0 :: bs) i rest := by
  cases bs with
  | nil => cases h
  | cons b bs =>
    simp only [decodeBusW1, beq_iff_eq] at h
    split_ifs at h with hidq hreq
    · cases h; subst hidq; exact ⟨rfl, rfl⟩
    · cases h; subst hreq; exact ⟨rfl, rfl⟩

theorem of_decodeBusW2 (h : decodeBusW2 bs = .ok (i, rest)) : IsLineOf (1 :: bs) i rest := by
  match bs, h with
  | a :: b :: bs, h =>
    simp only [decodeBusW2, Bool.and_eq_true, beq_iff_eq] at h
    split_ifs at h with hinit hunenc1 hunenc2
    · obtain ⟨rfl, rfl⟩ := hinit; cases h; exact ⟨rfl, rfl⟩
    · obtain ⟨rfl, rfl⟩ := hunenc1; cases h; exact ⟨rfl, rfl⟩
    · obtain ⟨rfl, rfl⟩ := hunenc2; cases h; exact ⟨rfl, rfl⟩

/-- A label with no operands (R99). -/
theorem of_label {fmt b : Byte} {n : Nat} {j : Instr} (hb : b.toNat = n)
    (hline : encode j = [fmt, BitVec.ofNat 8 n]) (hwf : j.wf = true)
    (h : (Except.ok (j, bs) : Except DecodeError _) = .ok (i, rest)) : IsLineOf (fmt :: b :: bs) i rest := by
  cases h
  exact ⟨hwf, by rw [hline, eq_ofNat_of_toNat hb]; rfl⟩

/-- A label with the six bytes that the sensor answers (R66, R99). -/
theorem of_labelWithFrame {fmt b : Byte} {n : Nat} {k : Frame → Instr} (hb : b.toNat = n)
    (hline : ∀ f, encode (k f) = fmt :: BitVec.ofNat 8 n :: bytesOfFrame f) (hwf : ∀ f, (k f).wf = true)
    (h : takeFrame k bs = .ok (i, rest)) : IsLineOf (fmt :: b :: bs) i rest := by
  obtain ⟨f, rfl, rfl⟩ := takeFrame_ok h
  exact ⟨hwf f, by rw [hline, eq_ofNat_of_toNat hb]; rfl⟩

/-- The label of `IIR_STEP` with the history and the sample (R193). -/
theorem of_labelWithIir {b : Byte} (hb : b.toNat = 16) (h : takeIir bs = .ok (i, rest)) :
    IsLineOf (6 :: b :: bs) i rest := by
  obtain ⟨hist, x, rfl, rfl⟩ := takeIir_ok h
  exact ⟨rfl, by rw [eq_ofNat_of_toNat hb, encode, List.cons_append, List.cons_append, List.append_assoc]; rfl⟩

theorem of_decodeEvt (h : decodeEvt bs = .ok (i, rest)) : IsLineOf (6 :: bs) i rest := by
  cases bs with
  | nil => cases h
  | cons b bs =>
    simp only [decodeEvt] at h
    split at h
    case h_4 hb => exact of_labelWithFrame hb (fun _ => rfl) (fun _ => rfl) h
    case h_11 hb => exact of_labelWithFrame hb (fun _ => rfl) (fun _ => rfl) h
    case h_17 hb => exact of_labelWithIir hb h
    case h_19 => cases h
    all_goals next hb => exact of_label hb rfl rfl h

theorem of_decodeUop (h : decodeUop bs = .ok (i, rest)) : IsLineOf (7 :: bs) i rest := by
  cases bs with
  | nil => cases h
  | cons b bs =>
    simp only [decodeUop] at h
    split at h
    case h_1 hb => exact of_labelWithFrame hb (fun _ => rfl) (fun _ => rfl) h
    case h_10 => cases h
    all_goals next hb => exact of_label hb rfl rfl h

/-- Whatever decodes is a line, format by format (R90). -/
theorem of_decode (h : decode bs = .ok (i, rest)) : IsLineOf bs i rest := by
  cases bs with
  | nil => cases h
  | cons fmt bs =>
    simp only [decode] at h
    split at h
    case h_1 hfmt => exact eq_ofNat_of_toNat hfmt ▸ of_decodeBusW1 h
    case h_2 hfmt => exact eq_ofNat_of_toNat hfmt ▸ of_decodeBusW2 h
    case h_3 hfmt => exact eq_ofNat_of_toNat hfmt ▸ of_busRead h
    case h_4 hfmt => exact eq_ofNat_of_toNat hfmt ▸ of_sampleFrame h
    case h_5 hfmt => exact eq_ofNat_of_toNat hfmt ▸ of_idFrame h
    case h_6 => cases h
    case h_7 hfmt => exact eq_ofNat_of_toNat hfmt ▸ of_decodeEvt h
    case h_8 hfmt => exact eq_ofNat_of_toNat hfmt ▸ of_decodeUop h
    case h_9 => cases h

end IsLineOf

/-- Settles O2, format by format. -/
theorem encodeOfDecodeIsTheLine : Obligations.EncodeOfDecodeIsTheLine :=
  fun _ _ _ h => IsLineOf.of_decode h

/-! ### Labels that name nothing (R100 (e)) -/

theorem decodeEvt_of_unnamed {b : Byte} (rest : List Byte) (h : 18 ≤ b.toNat) :
    decodeEvt (b :: rest) = .error .unknownEvent := by
  obtain ⟨n, hn⟩ := Nat.exists_eq_add_of_le' h
  simp only [decodeEvt, hn]

theorem decodeUop_of_unnamed {b : Byte} (rest : List Byte) (h : 9 ≤ b.toNat) :
    decodeUop (b :: rest) = .error .unknownMicroOp := by
  obtain ⟨n, hn⟩ := Nat.exists_eq_add_of_le' h
  simp only [decodeUop, hn]

/-- Settles O5: a label from 18 or 9 on is past the last named one. -/
theorem labelsThatNameNothingAreRefused : Obligations.LabelsThatNameNothingAreRefused :=
  ⟨fun _ rest h => decodeEvt_of_unnamed rest h, fun _ rest h => decodeUop_of_unnamed rest h⟩

end Sys2Proof.Proofs
end

section
/-! PROOFS. The operations that stand for a part of an event: the bus commands run as the events and
micro-operations that carry them (30_encoding.md R93, R100 (d)), the frame classes as the verdicts of their
classifiers (R95, R96, 40_bringup.md R123, 41_frame_reader.md R143, R144). -/

namespace Sys2Proof.Proofs

open Sys2Proof Sys2Proof.Machine Sys2Proof.Laws

/-! ### The guarded event where its guard holds, and where it does not -/

theorem whenEnabled_of_true {g : Bool} {why : Guard} {t : State} (h : g = true) :
    whenEnabled g why t = .next t := whenEnabled_next.2 ⟨h, rfl⟩

theorem whenEnabled_ne_next {g : Bool} {why : Guard} {t : State} (h : ¬g = true) (u : State) :
    whenEnabled g why t ≠ .next u := fun hnext => h (whenEnabled_next.1 hnext).1

section Command

variable {s : State}

/-- A bus command of bring-up runs in the phase of its event (R120 to R126). -/
theorem whenPhase_of_eq {p : Phase} {t : State} (h : s.ph = p) :
    whenEnabled (s.ph == p) .phase t = .next t := whenEnabled_of_true (beq_iff_eq.2 h)

theorem whenPhase_ne_next {p : Phase} {t : State} (h : s.ph ≠ p) (u : State) :
    whenEnabled (s.ph == p) .phase t ≠ .next u := whenEnabled_ne_next (mt beq_iff_eq.1 h) u

/-! ### The two bus commands that two places of the program issue (R93) -/

theorem execBrFrame_of_i2 {d : Frame} (h : s.ph = .i2) : execBrFrame d s = .next (bringUpRead d s) :=
  if_pos (beq_iff_eq.2 h)

/-- But for the identification read a bus read is `C_READ` (R141). -/
theorem execBrFrame_of_ne_i2 {d : Frame} (h : s.ph ≠ .i2) : execBrFrame d s = execCRead d s :=
  if_neg (mt beq_iff_eq.1 h)

theorem execBwReq_of_i6 (h : s.ph = .i6) : execBwReq s = .next (bringUpWrite [0x00] .i7 s) :=
  if_pos (beq_iff_eq.2 h)

/-- But for the first sample request a request is `C_REQ` (R142). -/
theorem execBwReq_of_ne_i6 (h : s.ph ≠ .i6) : execBwReq s = execCReq s :=
  if_neg (mt beq_iff_eq.1 h)

theorem execCRead_of_ready {d : Frame} (h : s.ph = .run ∧ s.tickPend = true ∧ s.mask = false ∧ s.cyc = .idle) :
    execCRead d s = .next (microRead d (enterCycle s)) := whenEnabled_of_true (cycleReady_iff.2 h)

theorem execCReq_of_position (h : s.cyc = .req) : execCReq s = .next (microReq s) :=
  whenEnabled_of_true (beq_iff_eq.2 h)

end Command

/-- Settles O18, command by command: four have one carrier, the other two have two, which the phase tells apart. -/
theorem busCommandRunsAsItsCarrier : Obligations.BusCommandRunsAsItsCarrier := by
  intro s d
  refine ⟨whenPhase_of_eq, whenPhase_of_eq, execBrFrame_of_i2, whenPhase_of_eq, whenPhase_of_eq,
    execBwReq_of_i6, fun hrun htick hmask hcyc => ?_, fun hph hcyc => ?_, whenPhase_ne_next,
    whenPhase_ne_next, fun hph hready => ?_, whenPhase_ne_next, whenPhase_ne_next, fun hph hcyc => ?_⟩
  · have hph : s.ph ≠ .i2 := by simp [hrun]
    exact (execBrFrame_of_ne_i2 hph).trans (execCRead_of_ready ⟨hrun, htick, hmask, hcyc⟩)
  · exact (execBwReq_of_ne_i6 hph).trans (execCReq_of_position hcyc)
  · rw [exec, execBrFrame_of_ne_i2 hph]
    exact whenEnabled_ne_next (mt cycleReady_iff.1 hready)
  · rw [exec, execBwReq_of_ne_i6 hph]
    exact whenEnabled_ne_next (mt beq_iff_eq.1 hcyc)

/-! ### The frame classes -/

/-- The bytes that the classes compare, 2 to 5, put in place of the frame's own (R95, R96). -/
theorem eq_frame_of_tail {f : Frame} {c2 c3 c4 c5 : Byte} (h2 : f.b2 = c2) (h3 : f.b3 = c3) (h4 : f.b4 = c4)
    (h5 : f.b5 = c5) : f = ⟨f.b0, f.b1, c2, c3, c4, c5⟩ := by
  subst h2 h3 h4 h5
  rfl

section FrameClass

variable {s t : State}

/-- `F_SPIKE` runs where the validator is at work on its frame, as the verdict `REJ = 1` (R143). -/
theorem execFSpike_next {u0 u1 xh yh : Byte} : execFSpike u0 u1 xh yh s = .next t ↔
    (s.cyc = .valid ∧ s.fb = ⟨u0, u1, xh, yh, 0xFE, 0xFE⟩) ∧ t = { s with rej := true, cyc := .fill } := by
  rw [execFSpike, whenEnabled_next, microValid_eq, Bool.and_eq_true, beq_iff_eq, beq_iff_eq]

/-- `F_VALID` runs where the validator is at work on its frame and that is no spike, as the verdict `REJ = 0`
(R144). -/
theorem execFValid_next {u0 u1 xh yh zh : Byte} {u7 : BitVec 1} {zl yl xl : BitVec 2} {ub : BitVec 1} :
    execFValid u0 u1 xh yh zh u7 zl yl xl ub s = .next t ↔
    (s.cyc = .valid ∧ s.fb = ⟨u0, u1, xh, yh, zh, byte5Of u7 zl yl xl ub⟩ ∧
      ¬(s.fb.b4 = 0xFE ∧ s.fb.b5 = 0xFE)) ∧ t = { s with rej := false, cyc := .fill } := by
  rw [execFValid, whenEnabled_next, microValid_eq, Bool.and_eq_true, Bool.and_eq_true, beq_iff_eq, beq_iff_eq,
    Bool.not_eq_true', ← Bool.not_eq_true, isSpike_iff, and_assoc (a := s.cyc = .valid)]

/-- `ID_GENUINE` runs where the classification has come to its frame, as the verdict `GENUINE = 1` (R123). -/
theorem execIdGenuine_next {i0 i1 : Byte} : execIdGenuine i0 i1 s = .next t ↔
    (s.ph = .i3 ∧ s.fb = ⟨i0, i1, 0x9A, 0x1E, 0xFE, 0xFE⟩) ∧ t = { s with genuine := true, ph := .i4 } := by
  rw [execIdGenuine, whenEnabled_next, Bool.and_eq_true, beq_iff_eq, beq_iff_eq]
  rfl

/-- `ID_OTHER` runs where the classification has come to its frame and that is not the genuine one, as the verdict
`GENUINE = 0` (R123). -/
theorem execIdOther_next {i0 i1 i2 i3 i4 i5 : Byte} : execIdOther i0 i1 i2 i3 i4 i5 s = .next t ↔
    (s.ph = .i3 ∧ s.fb = ⟨i0, i1, i2, i3, i4, i5⟩ ∧
      ¬(s.fb.b2 = 0x9A ∧ s.fb.b3 = 0x1E ∧ s.fb.b4 = 0xFE ∧ s.fb.b5 = 0xFE)) ∧
    t = { s with genuine := false, ph := .i4 } := by
  rw [execIdOther, whenEnabled_next, Bool.and_eq_true, Bool.and_eq_true, beq_iff_eq, beq_iff_eq,
    Bool.not_eq_true', ← Bool.not_eq_true, isGenuine_iff, and_assoc (a := s.ph = .i3)]
  rfl

end FrameClass

/-- Settles O19: each class answers a next state exactly where its classifier has that verdict. -/
theorem frameClassRunsAsTheVerdict : Obligations.FrameClassRunsAsTheVerdict := by
  intro s
  refine ⟨fun hcyc h4 h5 => execFSpike_next.2 ⟨⟨hcyc, ?_⟩, rfl⟩,
    fun u7 zl yl xl ub hcyc h5 hvalid => execFValid_next.2 ⟨⟨hcyc, ?_, hvalid⟩, rfl⟩,
    fun hph h2 h3 h4 h5 => execIdGenuine_next.2 ⟨⟨hph, ?_⟩, rfl⟩,
    fun hph hother => execIdOther_next.2 ⟨⟨hph, rfl, hother⟩, rfl⟩,
    fun _ _ _ _ _ h => (execFSpike_next.1 h).1, fun _ _ _ _ _ _ _ _ _ _ _ h => (execFValid_next.1 h).1,
    fun _ _ _ h => (execIdGenuine_next.1 h).1, fun _ _ _ _ _ _ _ h => (execIdOther_next.1 h).1⟩
  · exact eq_frame_of_tail rfl rfl h4 h5
  · exact eq_frame_of_tail rfl rfl rfl h5
  · exact eq_frame_of_tail h2 h3 h4 h5

end Sys2Proof.Proofs
end

section
/-! PROOFS. Bring-up and the failed state (40_bringup.md R120 to R131, 60_exceptions.md R240, R252): each event runs
exactly in its phase, the eight of them in a row are `initialize()`, and nothing leaves `PH_FAIL` but a reset. -/

namespace Sys2Proof.Proofs

open Sys2Proof Sys2Proof.Machine Sys2Proof.Laws

/-! ### The failed state (R128, R252) -/

section Failed

variable {s t : State} {i : Instr}

/-- No write of bring-up is issued in the failed state. -/
theorem BringUpRow.not_from_fail {bytes : List Byte} {q : Phase} : ¬BringUpRow .fail bytes q := nofun

/-- In the failed state the timer is stopped, no read is under way and no cycle is in progress. -/
theorem failed_quiet (hctl : ControlInv s) (hfail : s.ph = .fail) :
    s.acqEn = false ∧ s.rseq = .idle ∧ s.cyc = .idle := by
  obtain ⟨⟨hmask, hread⟩, ⟨htimer, -⟩, hcycle, -⟩ := hctl
  have hnot : s.ph ≠ .run := by simp [hfail]
  refine ⟨?_, ?_, ?_⟩
  · exact Bool.eq_false_of_not_eq_true (mt htimer.1 hnot)
  · exact Classical.byContradiction fun hseq => hnot (hread (hmask.2 hseq))
  · exact Classical.byContradiction fun hcyc => hnot (hcycle hcyc).1

/-- Each effect but three needs another phase, the timer, or a read or cycle in progress. -/
theorem OpEffect.of_failed (h : OpEffect s i t) (hctl : ControlInv s) (hfail : s.ph = .fail) :
    i = .reset ∨ (∃ hist x, i = .iirStep hist x) ∨ t = s := by
  obtain ⟨hstopped, hidle, hout⟩ := failed_quiet hctl hfail
  cases h with
  | reset => exact .inl rfl
  | iirStep => exact .inr (.inl ⟨_, _, rfl⟩)
  | failsig => exact .inr (.inr rfl)
  | bringUpWrite hph row =>
    rw [← hph, hfail] at row
    exact absurd row BringUpRow.not_from_fail
  | identRead hph | classify _ hph | start hph _ | identFailure hph _ | hold hph _ _ =>
    exact Phase.noConfusion (hfail.symm.trans hph)
  | tick hen => exact Bool.noConfusion (hstopped.symm.trans hen)
  | rdx hseq | rdy hseq | rdz hseq | release hseq => exact ReadSeq.noConfusion (hidle.symm.trans hseq)
  | cycle hready | read hready => exact Phase.noConfusion (hfail.symm.trans (cycleReady_iff.1 hready).1)
  | request hcyc | validate hcyc | unpack hcyc _ | carry hcyc _ | store hcyc | average hcyc _ | pass hcyc _
  | publish hcyc => exact CyclePos.noConfusion (hout.symm.trans hcyc)

end Failed

/-- Settles O54, from the effects of the operations. -/
theorem failedStateIsForGood : Obligations.FailedStateIsForGood :=
  fun _ _ _ hctl hfail h => (OpEffect.of_exec h).of_failed hctl hfail

/-! ### The events of bring-up, each exactly in its phase -/

/-- An event of one phase runs there, with its effect, and in no other phase. -/
theorem whenPhase_exactly (s : State) (p : Phase) (t : State) :
    (s.ph = p → whenEnabled (s.ph == p) .phase t = .next t) ∧
    (s.ph ≠ p → ∀ u, whenEnabled (s.ph == p) .phase t ≠ .next u) :=
  ⟨whenPhase_of_eq, whenPhase_ne_next⟩

/-- Settles O8: the settle delay after the write changes no state (R15). -/
theorem initEventWritesLegacySequence : Obligations.InitEventWritesLegacySequence :=
  fun s => whenPhase_exactly s .boot (bringUpWrite [0x40, 0x00] .i1 s)

/-- Settles O9: the settle delay after the write changes no state (R15). -/
theorem identityQueryIsWritten : Obligations.IdentityQueryIsWritten :=
  fun s => whenPhase_exactly s .i1 (bringUpWrite [0xFA] .i2 s)

/-- Settles O10: the event is the read alone (C4). -/
theorem identificationFrameIsRead : Obligations.IdentificationFrameIsRead :=
  fun s d => whenPhase_exactly s .i2 (bringUpRead d s)

/-- The classifier's verdict as a comparison of bytes 2 to 5 (R96, R123). -/
theorem isGenuine_eq_decide (f : Frame) :
    isGenuine f = decide (f.b2 = 0x9A ∧ f.b3 = 0x1E ∧ f.b4 = 0xFE ∧ f.b5 = 0xFE) := by
  rw [Bool.eq_iff_iff, isGenuine_iff, decide_eq_true_iff]

/-- Settles O11: the verdict of the classifier on the frame in `FB`. -/
theorem classificationComparesBytesTwoToFive : Obligations.ClassificationComparesBytesTwoToFive := by
  intro s
  rw [← isGenuine_eq_decide]
  exact whenPhase_exactly s .i3 (bringUpClass (isGenuine s.fb) s)

/-- Settles O12: neither the guard nor the write reads `GENUINE`. -/
theorem firstModeSwitchIsWritten : Obligations.FirstModeSwitchIsWritten :=
  fun s => whenPhase_exactly s .i4 (bringUpWrite [0xF0, 0x55] .i5 s)

/-- Settles O13: neither the guard nor the write reads `GENUINE`. -/
theorem secondModeSwitchIsWritten : Obligations.SecondModeSwitchIsWritten :=
  fun s => whenPhase_exactly s .i5 (bringUpWrite [0xFB, 0x00] .i6 s)

/-- Settles O14: neither the guard nor the write reads `GENUINE`. -/
theorem firstSampleIsRequested : Obligations.FirstSampleIsRequested :=
  fun s => whenPhase_exactly s .i6 (bringUpWrite [0x00] .i7 s)

/-! ### The end of bring-up (R127, R240) -/

section BringUpEnd

variable {s : State}

theorem bringUpEnd_of_genuine (hg : s.genuine = true) :
    bringUpEnd s = { s with acqEn := true, indMode := .normal, ph := .run } := if_pos hg

theorem bringUpEnd_of_other (hg : s.genuine = false) :
    bringUpEnd s = { s with indMode := .fail, ph := .fail } := if_neg (by simp [hg])

@[simp] theorem bringUpEnd_genuine (s : State) : (bringUpEnd s).genuine = s.genuine := by
  unfold bringUpEnd
  split <;> rfl

@[simp] theorem bringUpEnd_ph (s : State) : (bringUpEnd s).ph = if s.genuine then .run else .fail := by
  unfold bringUpEnd
  split <;> rfl

theorem exec_iStart (hph : s.ph = .i7) : exec .iStart s = .next (bringUpEnd s) := whenPhase_of_eq hph

theorem setPhase_self {p : Phase} (hph : s.ph = p) : { s with ph := p } = s := by
  subst hph
  rfl

end BringUpEnd

/-- Settles O15: `bringUpEnd` by the two values of `GENUINE`. -/
theorem startDependsOnTheClassification : Obligations.StartDependsOnTheClassification := by
  refine fun s => ⟨fun hph hg => ?_, fun hph hg => ?_, whenPhase_ne_next⟩
  · rw [exec_iStart hph, bringUpEnd_of_genuine hg]
  · rw [exec_iStart hph, bringUpEnd_of_other hg]

/-- Settles O16: writing `PH_FAIL` where it stands leaves the state. -/
theorem failureSignalChangesNothing : Obligations.FailureSignalChangesNothing := by
  refine fun s => ⟨fun hph => ?_, whenPhase_ne_next⟩
  calc exec .failsig s = .next { s with ph := .fail } := whenPhase_of_eq hph
    _ = .next s := by rw [setPhase_self hph]

/-! ### The whole of `initialize()` (R103, R129) -/

section Initialize

variable {s t : State} {d : Frame}

theorem runOps_cons_of_next {i : Instr} {is : List Instr} {o : Option State} (h : exec i s = .next t)
    (hrest : runOps is t = o) : runOps (i :: is) s = o := by
  rw [runOps_cons, h]
  exact hrest

/-- The state in which `I_START` finds the block: `initialize()` began in `s` and read the frame `d`. -/
def awaitingStart (d : Frame) (s : State) : State :=
  { s with
    fb := d, genuine := isGenuine d, ph := .i7,
    busLog := s.busLog ++ [.w [0x40, 0x00], .w [0xFA], .r d, .w [0xF0, 0x55], .w [0xFB, 0x00], .w [0x00]] }

/-- Each of the first seven events leaves the phase in which the next one runs. -/
theorem runOps_beforeStart (hph : s.ph = .boot) :
    runOps [.iInit, .iIdq, .iIdr d, .iClass, .iUnenc1, .iUnenc2, .iReq] s = some (awaitingStart d s) := by
  refine runOps_cons_of_next ((initEventWritesLegacySequence s).1 hph) ?_
  refine runOps_cons_of_next ((identityQueryIsWritten _).1 rfl) ?_
  refine runOps_cons_of_next ((identificationFrameIsRead _ d).1 rfl) ?_
  refine runOps_cons_of_next ((classificationComparesBytesTwoToFive _).1 rfl) ?_
  refine runOps_cons_of_next ((firstModeSwitchIsWritten _).1 rfl) ?_
  refine runOps_cons_of_next ((secondModeSwitchIsWritten _).1 rfl) ?_
  refine runOps_cons_of_next ((firstSampleIsRequested _).1 rfl) ?_
  simp [awaitingStart, isGenuine_eq_decide]

theorem runOps_initialize (hph : s.ph = .boot) :
    runOps (initializeOps d) s = some (bringUpEnd (awaitingStart d s)) := by
  have hsplit : initializeOps d =
      [.iInit, .iIdq, .iIdr d, .iClass, .iUnenc1, .iUnenc2, .iReq] ++ [.iStart] := rfl
  rw [hsplit, runOps_append, runOps_beforeStart hph]
  exact runOps_cons_of_next (exec_iStart (s := awaitingStart d s) rfl) (runOps_nil _)

end Initialize

/-- Settles O17: seven events whatever the sensor answers, then the end of bring-up by the classification. -/
theorem bringUpProducesSixTransactions : Obligations.BringUpProducesSixTransactions := by
  intro s d hph
  refine ⟨_, runOps_initialize hph, bringUpEnd_busLog _, ?_, ?_⟩
  · rw [bringUpEnd_genuine]
    exact isGenuine_iff
  · rw [bringUpEnd_ph, bringUpEnd_genuine]

end Sys2Proof.Proofs
end

section
/-! PROOFS. The cycle and its micro-operations (41_frame_reader.md R140 to R148): each micro-operation where its
guard holds, the cycle as their run in R103's order, and what a whole cycle leaves under each policy. -/

namespace Sys2Proof.Proofs

open Sys2Proof Sys2Proof.Machine Sys2Proof.Laws

/-! ### One operation at its place (R140 to R146) -/

section Place

variable {s t : State} {d : Frame}

/-- A micro-operation runs at its position in the cycle (R146). -/
theorem whenPosition_of_eq {p : CyclePos} (h : s.cyc = p) :
    whenEnabled (s.cyc == p) .cyclePosition t = .next t := whenEnabled_of_true (beq_iff_eq.2 h)

theorem whenPosition_ne_next {p : CyclePos} (h : s.cyc ≠ p) (u : State) :
    whenEnabled (s.cyc == p) .cyclePosition t ≠ .next u := whenEnabled_ne_next (mt beq_iff_eq.1 h) u

theorem exec_cycle_next : exec (.cycle d) s = .next t ↔ cycleReady s = true ∧ t = cycleBody d s :=
  whenEnabled_next

theorem exec_cRead_next : exec (.cRead d) s = .next t ↔ cycleReady s = true ∧ t = microRead d (enterCycle s) :=
  whenEnabled_next

theorem exec_cValid (h : s.cyc = .valid) : exec .cValid s = .next (microValid (isSpike s.fb) s) :=
  whenPosition_of_eq h

theorem exec_cStore (h : s.cyc = .store) : exec .cStore s = .next (microStore s) := whenPosition_of_eq h

theorem exec_cPub (h : s.cyc = .pub) : exec .cPub s = .next (microPub s) := whenPosition_of_eq h

theorem exec_cCarry_next :
    exec .cCarry s = .next t ↔ (s.cyc = .fill ∧ s.rej = true) ∧ t = microCarry s := by
  rw [exec, execCCarry, whenEnabled_next, Bool.and_eq_true, beq_iff_eq]

theorem exec_cUnpack_next :
    exec .cUnpack s = .next t ↔ (s.cyc = .fill ∧ s.rej = false) ∧ t = microUnpack s := by
  rw [exec, execCUnpack, whenEnabled_next, Bool.and_eq_true, beq_iff_eq, Bool.not_eq_true']

theorem exec_cAvg_next :
    exec .cAvg s = .next t ↔ (s.cyc = .filter ∧ s.cfg.policy ≠ .pt) ∧ t = microAvg s := by
  rw [exec, execCAvg, whenEnabled_next, Bool.and_eq_true, beq_iff_eq, bne_iff_ne]

theorem exec_cPass_next :
    exec .cPass s = .next t ↔ (s.cyc = .filter ∧ s.cfg.policy = .pt) ∧ t = microPass s := by
  rw [exec, execCPass, whenEnabled_next, Bool.and_eq_true, beq_iff_eq, beq_iff_eq]

end Place

/-- The validator's verdict as a comparison of the sentinel's two bytes (R143). -/
theorem isSpike_eq_decide (f : Frame) : isSpike f = decide (f.b4 = 0xFE ∧ f.b5 = 0xFE) := by
  rw [Bool.eq_iff_iff, isSpike_iff, decide_eq_true_iff]

/-- Settles O23: `C_READ` by the guard of the cycle, `C_REQ` and `C_VALID` by their positions. -/
theorem readRequestAndValidate : Obligations.ReadRequestAndValidate := by
  refine fun s d => ⟨fun hrun htick hmask hcyc => ?_, fun hnot => ?_, whenPosition_of_eq, whenPosition_ne_next,
    fun hcyc => ?_, whenPosition_ne_next⟩
  · exact execCRead_of_ready ⟨hrun, htick, hmask, hcyc⟩
  · exact whenEnabled_ne_next (mt cycleReady_iff.1 hnot)
  · rw [← isSpike_eq_decide, ← microValid_eq]
    exact exec_cValid hcyc

/-- Before slot 0 stands the last slot (R61). -/
theorem prevSlot_of_lt {k i : Nat} (h : i < 2 ^ (k + 1)) :
    prevSlot (.ma k) i = if i = 0 then 2 ^ (k + 1) - 1 else i - 1 := by
  change (i + (2 ^ (k + 1) - 1)) % 2 ^ (k + 1) = _
  split
  case isTrue hzero => rw [hzero, Nat.zero_add, Nat.mod_eq_of_lt (by omega)]
  case isFalse hpos =>
    have hwrap : i + (2 ^ (k + 1) - 1) = (i - 1) + 2 ^ (k + 1) := by omega
    rw [hwrap, Nat.add_mod_right, Nat.mod_eq_of_lt (by omega)]

/-- Settles O25: the carried sample by the policy, the wrap of the slot index before slot 0. -/
theorem carryRepeatsThePrecedingSample : Obligations.CarryRepeatsThePrecedingSample := by
  refine fun s => ⟨fun k hpol hcyc hrej hcur => ?_, fun hpol hcyc hrej => ?_, fun hnot t h => ?_⟩
  · refine exec_cCarry_next.2 ⟨⟨hcyc, hrej⟩, ?_⟩
    rw [microCarry, carriedSample_ma hpol, prevSlot_of_lt hcur]
  · refine exec_cCarry_next.2 ⟨⟨hcyc, hrej⟩, ?_⟩
    rw [microCarry, carriedSample_pt hpol]
  · obtain ⟨⟨hcyc, hrej⟩, -⟩ := exec_cCarry_next.1 h
    simp [hcyc, hrej] at hnot

/-! ### The cycle as the run of its micro-operations (R103, R146) -/

section MicroOperations

variable {s t : State} {d : Frame}

/-- The micro-operation that fills the sample of a cycle on a frame. -/
def fillOp (d : Frame) : Instr := if isSpike d then .cCarry else .cUnpack

/-- The micro-operation that filters under a policy. -/
def filterOp : Policy → Instr
  | .ma _ => .cAvg
  | .pt => .cPass

theorem cycleOps_eq (p : Policy) (d : Frame) :
    cycleOps p d = [.cRead d, .cReq, .cValid, fillOp d, .cStore, filterOp p, .cPub] := by
  cases p <;> rfl

/-- After the verdict on a frame the one of `C_UNPACK` and `C_CARRY` runs that `REJ` names (R144, R145). -/
theorem exec_fillOp (hcyc : s.cyc = .fill) (hrej : s.rej = isSpike d) :
    exec (fillOp d) s = .next (microFill s) := by
  unfold fillOp microFill
  rw [hrej]
  split
  case isTrue hspike => exact exec_cCarry_next.2 ⟨⟨hcyc, hrej.trans hspike⟩, rfl⟩
  case isFalse hvalid =>
    exact exec_cUnpack_next.2 ⟨⟨hcyc, hrej.trans (Bool.eq_false_of_not_eq_true hvalid)⟩, rfl⟩

/-- After the store the filter of the policy runs (R173, R176). -/
theorem exec_filterOp {p : Policy} (hcyc : s.cyc = .filter) (hpol : s.cfg.policy = p) :
    exec (filterOp p) s = .next (microFilter s) := by
  cases p with
  | ma k =>
    rw [microFilter_ma hpol]
    exact exec_cAvg_next.2 ⟨⟨hcyc, by simp [hpol]⟩, rfl⟩
  | pt =>
    rw [microFilter_pt hpol]
    exact exec_cPass_next.2 ⟨⟨hcyc, hpol⟩, rfl⟩

@[simp] theorem microValid_cyc (b : Bool) (s : State) : (microValid b s).cyc = .fill := by rw [microValid_eq]

@[simp] theorem microValid_rej (b : Bool) (s : State) : (microValid b s).rej = b := by rw [microValid_eq]

@[simp] theorem microFill_cyc (s : State) : (microFill s).cyc = .store := by rw [microFill_eq]

@[simp] theorem microFill_cfg (s : State) : (microFill s).cfg = s.cfg := by rw [microFill_eq]

@[simp] theorem microStore_cyc (s : State) : (microStore s).cyc = .filter := by rw [microStore_frame]

@[simp] theorem microFilter_cyc (s : State) : (microFilter s).cyc = .pub := by rw [microFilter_frame]

/-- Each micro-operation after the read leaves the position at which the next one runs. -/
theorem runOps_afterRead (d : Frame) (s : State) :
    runOps [.cReq, .cValid, fillOp d, .cStore, filterOp s.cfg.policy, .cPub] (microRead d (enterCycle s)) =
      some (cycleBody d s) := by
  refine runOps_cons_of_next (execCReq_of_position (microRead_cyc ..)) ?_
  refine runOps_cons_of_next (exec_cValid (microReq_cyc _)) ?_
  refine runOps_cons_of_next (exec_fillOp (microValid_cyc ..) (microValid_rej ..)) ?_
  refine runOps_cons_of_next (exec_cStore (microFill_cyc _)) ?_
  refine runOps_cons_of_next (exec_filterOp (microStore_cyc _) (by simp)) ?_
  refine runOps_cons_of_next (exec_cPub (microFilter_cyc _)) ?_
  rfl

theorem runOps_cycleOps : runOps (cycleOps s.cfg.policy d) s = some t ↔ cycleReady s = true ∧ t = cycleBody d s := by
  rw [cycleOps_eq, runOps_cons_some]
  constructor
  · rintro ⟨u, hread, hrest⟩
    obtain ⟨hready, rfl⟩ := exec_cRead_next.1 hread
    rw [runOps_afterRead] at hrest
    exact ⟨hready, (Option.some.inj hrest).symm⟩
  · rintro ⟨hready, rfl⟩
    exact ⟨_, exec_cRead_next.2 ⟨hready, rfl⟩, runOps_afterRead d s⟩

end MicroOperations

/-- Settles O29: the guard is that of `C_READ`, and the rest runs to the end. -/
theorem cycleIsItsMicroOperations : Obligations.CycleIsItsMicroOperations :=
  fun _ _ _ => exec_cycle_next.trans runOps_cycleOps.symm

/-! ### What a whole cycle leaves (R145, R171 to R176, R210) -/

section WholeCycle

variable {s : State} {d f g : Frame}

theorem sumSlots_eq_sum (b : Sparse Axis) (m : Nat) :
    sumSlots b m = ((List.range m).map fun i => (sparseRead 0 b i).toNat).sum := by
  induction m with
  | zero => rfl
  | succ m ih => simp [sumSlots, ih, List.range_succ]

theorem sumSlots_le (b : Sparse Axis) (m : Nat) : sumSlots b m ≤ m * 1023 := by
  induction m with
  | zero => exact Nat.le_refl 0
  | succ m ih =>
    have hslot := (sparseRead 0 b m).isLt
    simp only [sumSlots]
    omega

/-- The rounded mean of M slots fits 10 bits, so that it is the quotient itself (R174, R175). -/
theorem toNat_average (k : Nat) (b : Sparse Axis) :
    (average (.ma k) b).toNat =
      (((List.range (2 ^ (k + 1))).map fun i => (sparseRead 0 b i).toNat).sum + 2 ^ k) / 2 ^ (k + 1) := by
  have hpow : 2 ^ (k + 1) = 2 ^ k * 2 := Nat.pow_succ ..
  have hhalf : half (.ma k) = 2 ^ k := by
    rw [half, depth, log2m, hpow, Nat.mul_div_cancel _ (by decide)]
  have hfits : (sumSlots b (2 ^ (k + 1)) + 2 ^ k) / 2 ^ (k + 1) < 2 ^ 10 := by
    have hsum := sumSlots_le b (2 ^ (k + 1))
    have hpos := Nat.two_pow_pos k
    exact Nat.div_lt_of_lt_mul (by omega)
  rw [average, hhalf, depth, log2m, BitVec.toNat_ofNat, Nat.shiftRight_eq_div_pow, Nat.mod_eq_of_lt hfits,
    sumSlots_eq_sum]

/-- `zext_16` keeps the value (R97, R210). -/
theorem toNat_publishedField (v : Axis) : (publishedField v).toNat = v.toNat :=
  BitVec.toNat_setWidth_of_le (by decide)

/-- The registers that a cycle writes besides the sample and its filter (R146), for a cycle that may begin. -/
theorem cycleBody_eq (hcyc : s.cyc = .idle) :
    cycleBody d s =
      { s with
        fb := d, rej := decide (d.b4 = 0xFE ∧ d.b5 = 0xFE), tickPend := false,
        busLog := s.busLog ++ [.r d, .w [0x00]],
        samp := (cycleBody d s).samp, buf := (cycleBody d s).buf, cur := (cycleBody d s).cur,
        lat := (cycleBody d s).lat, filt := (cycleBody d s).filt, pub := (cycleBody d s).pub } := by
  rw [cycleBody_frame, ← isSpike_eq_decide, List.append_assoc, ← hcyc]
  rfl

theorem cycleBody_samp_ma {k : Nat} (hpol : s.cfg.policy = .ma k) :
    (cycleBody d s).samp = if d.b4 = 0xFE ∧ d.b5 = 0xFE
      then readSlot s.buf ((s.cur + (2 ^ (k + 1) - 1)) % 2 ^ (k + 1)) else unpackFrame d := by
  simp only [cycleBody_samp, carriedSample_ma hpol, isSpike_iff]
  rfl

theorem cycleBody_samp_pt (hpol : s.cfg.policy = .pt) :
    (cycleBody d s).samp = if d.b4 = 0xFE ∧ d.b5 = 0xFE then s.lat else unpackFrame d := by
  simp only [cycleBody_samp, carriedSample_pt hpol, isSpike_iff]

/-- Under `MA` each lane publishes the rounded mean of the slots after the store (R173, R174, R210). -/
theorem cycleBody_pub_ma {k : Nat} (hpol : s.cfg.policy = .ma k) :
    (cycleBody d s).pub.x.toNat = (average (.ma k) (cycleBody d s).buf.x).toNat ∧
    (cycleBody d s).pub.y.toNat = (average (.ma k) (cycleBody d s).buf.y).toNat ∧
    (cycleBody d s).pub.z.toNat = (average (.ma k) (cycleBody d s).buf.z).toNat := by
  obtain ⟨-, -, -, hfilt, hpub⟩ := cycleBody_ma (d := d) hpol
  rw [hpub, hfilt]
  exact ⟨toNat_publishedField _, toNat_publishedField _, toNat_publishedField _⟩

/-- Under `PT` each lane publishes the sample (R176, R210). -/
theorem cycleBody_pub_pt (hpol : s.cfg.policy = .pt) :
    (cycleBody d s).pub.x.toNat = (cycleBody d s).samp.x.toNat ∧
    (cycleBody d s).pub.y.toNat = (cycleBody d s).samp.y.toNat ∧
    (cycleBody d s).pub.z.toNat = (cycleBody d s).samp.z.toNat := by
  obtain ⟨-, -, -, -, hpub⟩ := cycleBody_pt (d := d) hpol
  rw [hpub]
  exact ⟨toNat_publishedField _, toNat_publishedField _, toNat_publishedField _⟩

/-- The frame acts on the filter state and on what is published through the sample alone (R148). -/
theorem cycleBody_congr_samp (h : (cycleBody f s).samp = (cycleBody g s).samp) :
    (cycleBody f s).buf = (cycleBody g s).buf ∧ (cycleBody f s).cur = (cycleBody g s).cur ∧
    (cycleBody f s).lat = (cycleBody g s).lat ∧ (cycleBody f s).pub = (cycleBody g s).pub := by
  cases hpol : s.cfg.policy with
  | ma k =>
    obtain ⟨hbuf, hcur, hlat, hfilt, hpub⟩ := cycleBody_ma (d := f) hpol
    obtain ⟨hbuf', hcur', hlat', hfilt', hpub'⟩ := cycleBody_ma (d := g) hpol
    have hsame : (cycleBody f s).buf = (cycleBody g s).buf := by rw [hbuf, hbuf', h]
    refine ⟨hsame, hcur.trans hcur'.symm, hlat.trans hlat'.symm, ?_⟩
    rw [hpub, hpub', hfilt, hfilt', hsame]
  | pt =>
    obtain ⟨hbuf, hcur, hlat, -, hpub⟩ := cycleBody_pt (d := f) hpol
    obtain ⟨hbuf', hcur', hlat', -, hpub'⟩ := cycleBody_pt (d := g) hpol
    refine ⟨hbuf.trans hbuf'.symm, hcur.trans hcur'.symm, ?_, ?_⟩
    · rw [hlat, hlat', h]
    · rw [hpub, hpub', h]

end WholeCycle

/-- Settles O21: the frame of the cycle, then its filter from the slots after the store. -/
theorem cycleUnderMovingAverage : Obligations.CycleUnderMovingAverage := by
  intro s d k hpol hrun htick hmask hcyc
  obtain ⟨hbuf, hcur, hlat, -, -⟩ := cycleBody_ma (d := d) hpol
  obtain ⟨hx, hy, hz⟩ := cycleBody_pub_ma (d := d) hpol
  refine ⟨cycleBody d s, exec_cycle_next.2 ⟨cycleReady_iff.2 ⟨hrun, htick, hmask, hcyc⟩, rfl⟩,
    cycleBody_samp_ma hpol, fun j => ?_, hcur, hx.trans (toNat_average k _), hy.trans (toNat_average k _),
    hz.trans (toNat_average k _), ?_⟩
  · rw [hbuf, readSlot_writeSlot]
    simp only [eq_comm]
  · rw [← hlat]
    exact cycleBody_eq hcyc

/-- Settles O22: the frame of the cycle; the slot, the filter and the published fields take the sample. -/
theorem cycleUnderPassthrough : Obligations.CycleUnderPassthrough := by
  intro s d hpol hrun htick hmask hcyc
  obtain ⟨hbuf, hcur, hlat, hfilt, -⟩ := cycleBody_pt (d := d) hpol
  obtain ⟨hx, hy, hz⟩ := cycleBody_pub_pt (d := d) hpol
  refine ⟨cycleBody d s, exec_cycle_next.2 ⟨cycleReady_iff.2 ⟨hrun, htick, hmask, hcyc⟩, rfl⟩,
    cycleBody_samp_pt hpol, hx, hy, hz, ?_⟩
  calc cycleBody d s = _ := cycleBody_eq hcyc
    _ = _ := by rw [hbuf, hcur, hlat, hfilt]

/-- Settles O30: both cycles end up with the same sample, which is all that the filter takes of a frame. -/
theorem rejectedFrameActsAsARepeat : Obligations.RejectedFrameActsAsARepeat := by
  intro s t u f g hf4 hf5 hg hma hpt ht hu
  obtain ⟨-, rfl⟩ := exec_cycle_next.1 ht
  obtain ⟨-, rfl⟩ := exec_cycle_next.1 hu
  refine cycleBody_congr_samp ?_
  cases hpol : s.cfg.policy with
  | ma k => rw [cycleBody_samp_ma hpol, cycleBody_samp_ma hpol, if_pos ⟨hf4, hf5⟩, if_neg hg, hma k hpol]
  | pt => rw [cycleBody_samp_pt hpol, cycleBody_samp_pt hpol, if_pos ⟨hf4, hf5⟩, if_neg hg, hpt hpol]

end Sys2Proof.Proofs
end

section
/-! PROOFS. When a cycle begins (41_frame_reader.md R140, 60_exceptions.md R246, 70_reset_and_hazards.md R301): the
guard of the cycle, and that a fair run in `PH_RUN` with the consumer idle begins cycles again and again. -/

namespace Sys2Proof.Proofs

open Sys2Proof Sys2Proof.Machine Sys2Proof.Laws

/-! ### The position in a cycle over one operation -/

/-- The micro-operations that a cycle has still to run from a position (R103, R146). -/
def opsLeft : CyclePos → Nat
  | .idle => 0
  | .pub => 1
  | .filter => 2
  | .store => 3
  | .fill => 4
  | .valid => 5
  | .req => 6

section Position

variable {s t u : State} {i : Instr}

@[simp] theorem bringUpEnd_cyc (s : State) : (bringUpEnd s).cyc = s.cyc := by
  unfold bringUpEnd
  split <;> rfl

theorem idle_of_cycleReady (h : cycleReady s = true) : s.cyc = .idle := by
  obtain ⟨-, -, -, hout⟩ := cycleReady_iff.1 h
  exact hout

/-- Inside a cycle no operation takes the cycle back. -/
theorem OpEffect.opsLeft_le (h : OpEffect s i t) (hin : s.cyc ≠ .idle) : opsLeft t.cyc ≤ opsLeft s.cyc := by
  cases h with
  | reset | cycle | publish => exact Nat.zero_le _
  | read hready => exact absurd (idle_of_cycleReady hready) hin
  | request hcyc | validate hcyc | unpack hcyc _ | carry hcyc _ | store hcyc | average hcyc _ | pass hcyc _ =>
    simp [opsLeft, hcyc]
  | _ => exact Nat.le_refl _

/-- An operation that continues the cycle in progress takes it on. -/
theorem OpEffect.opsLeft_lt (h : OpEffect s i t) (hi : ContinuesCycle (.op i)) (hrun : s.ph = .run)
    (hin : s.cyc ≠ .idle) : opsLeft t.cyc < opsLeft s.cyc := by
  cases h with
  | request hcyc | validate hcyc | unpack hcyc _ | carry hcyc _ | store hcyc | average hcyc _ | pass hcyc _
  | publish hcyc =>
    simp [opsLeft, hcyc]
  | read hready => exact absurd (idle_of_cycleReady hready) hin
  | bringUpWrite hph row => exact absurd (hph.symm.trans hrun) row.ne_run.1
  | identRead hph | classify _ hph => exact Phase.noConfusion (hrun.symm.trans hph)
  | _ => simp [ContinuesCycle] at hi

/-- A guarded event whose update does not lead to the request of a cycle leaves it only where it stood. -/
theorem req_of_whenEnabled {g : Bool} {why : Guard} (h : whenEnabled g why u = .next t)
    (hu : u.cyc = .req → s.cyc = .req) (ht : t.cyc = .req) : s.cyc = .req := by
  obtain ⟨-, rfl⟩ := whenEnabled_next.1 h
  exact hu ht

/-- The first position of a cycle is entered only by an operation that begins one. -/
theorem req_of_exec (h : exec i s = .next t) (hi : ¬BeginsCycle (.op i)) (ht : t.cyc = .req) : s.cyc = .req := by
  cases i with
  | cycle d => exact absurd ⟨d, .inl rfl⟩ hi
  | cRead d => exact absurd ⟨d, .inr (.inl rfl)⟩ hi
  | brFrame d => exact absurd ⟨d, .inr (.inr rfl)⟩ hi
  | reset =>
    cases h
    exact CyclePos.noConfusion ht
  | bwReq =>
    by_cases hph : s.ph = .i6
    · rw [exec, execBwReq_of_i6 hph] at h
      cases h
      exact ht
    · rw [exec, execBwReq_of_ne_i6 hph] at h
      exact req_of_whenEnabled h nofun ht
  | iirStep hist x =>
    obtain ⟨_, _, -, rfl⟩ := execIirStep_next.1 h
    exact ht
  | iStart | fSpike | fValid | cValid | cStore => exact req_of_whenEnabled h (by simp) ht
  | cReq | cUnpack | cCarry | cAvg | cPass | cPub => exact req_of_whenEnabled h nofun ht
  | _ => exact req_of_whenEnabled h id ht

/-- Outside a cycle an operation that begins none stays outside. -/
theorem idle_of_exec (h : exec i s = .next t) (hi : ¬BeginsCycle (.op i)) (hout : s.cyc = .idle) :
    t.cyc = .idle := by
  have hnot : t.cyc ≠ .req := fun ht => CyclePos.noConfusion (hout.symm.trans (req_of_exec h hi ht))
  cases OpEffect.of_exec h with
  | read => exact absurd rfl hnot
  | reset | cycle | publish => rfl
  | request hcyc | validate hcyc | unpack hcyc _ | carry hcyc _ | store hcyc | average hcyc _ | pass hcyc _ =>
    exact CyclePos.noConfusion (hout.symm.trans hcyc)
  | _ => exact hout

/-- A pending tick stays pending until a cycle takes it or a reset clears it (R31, R246, R248). -/
theorem OpEffect.keeps_tickPend (h : OpEffect s i t) (hi : ¬BeginsCycle (.op i)) (hrun : t.ph = .run)
    (hout : t.cyc = .idle) (hpend : s.tickPend = true) : t.tickPend = true := by
  cases h with
  | reset => exact Phase.noConfusion hrun
  | cycle => exact absurd ⟨_, .inl rfl⟩ hi
  | read => exact CyclePos.noConfusion hout
  | tick => rfl
  | _ => exact hpend

end Position

/-! ### Fair runs (R301, R302) -/

/-- From `n` on the run stays in `PH_RUN` with the consumer idle. -/
def StaysIdleInRun (r : Nat → State) (n : Nat) : Prop := ∀ m, n ≤ m → (r m).ph = .run ∧ (r m).rseq = .idle

/-- From `n` on no move begins a cycle. -/
def BeginsNoCycle (ms : Nat → Move) (n : Nat) : Prop := ∀ m, n ≤ m → ¬BeginsCycle (ms m)

section Runs

variable {ms : Nat → Move} {r : Nat → State} {n m : Nat}

theorem runMove_cases {a : Move} {s t : State} (h : runMove a s = .next t) :
    (∃ i, a = .op i ∧ exec i s = .next t) ∨ (a = .raiseRdReq ∧ t = raiseRdReq s) := by
  cases a with
  | op i => exact .inl ⟨i, rfl, h⟩
  | raiseRdReq => exact .inr ⟨rfl, (Host.Outcome.next.inj h).symm⟩

/-- What every operation and a request do to one state, the run does to it. -/
theorem isRun_next_of {P : State → Prop} (hr : IsRun ms r) (hreq : P (raiseRdReq (r m)))
    (hop : ∀ i t, ms m = .op i → exec i (r m) = .next t → P t) : P (r (m + 1)) := by
  obtain ⟨i, hi, hex⟩ | ⟨-, hnext⟩ := runMove_cases (hr m)
  · exact hop i _ hi hex
  · rw [hnext]
    exact hreq

theorem isRun_controlInv (hr : IsRun ms r) (h0 : ControlInv (r 0)) (m : Nat) : ControlInv (r m) := by
  induction m with
  | zero => exact h0
  | succ m ih => exact isRun_next_of hr (P := ControlInv) ih fun _ _ _ hex => (OpEffect.of_exec hex).keeps_controlInv ih

/-- With the consumer idle no hold is on (R41 (d)). -/
theorem mask_of_idle {s : State} (hctl : ControlInv s) (hidle : s.rseq = .idle) : s.mask = false := by
  obtain ⟨⟨hmask, -⟩, -⟩ := hctl
  exact Bool.eq_false_of_not_eq_true fun hon => hmask.1 hon hidle

theorem isRun_idle_stays (hr : IsRun ms r) (hno : BeginsNoCycle ms n) (hm : n ≤ m) (hout : (r m).cyc = .idle) :
    (r (m + 1)).cyc = .idle :=
  isRun_next_of hr (P := fun u => u.cyc = .idle) hout fun _ _ hi hex => idle_of_exec hex (hi ▸ hno m hm) hout

theorem isRun_tickPend_stays (hr : IsRun ms r) (hrun : StaysIdleInRun r n) (hno : BeginsNoCycle ms n) (hm : n ≤ m)
    (hout : (r m).cyc = .idle) (hpend : (r m).tickPend = true) : (r (m + 1)).tickPend = true := by
  have hph := (hrun (m + 1) (by omega)).1
  have hout' := isRun_idle_stays hr hno hm hout
  obtain ⟨i, hi, hex⟩ | ⟨-, hnext⟩ := runMove_cases (hr m)
  · exact (OpEffect.of_exec hex).keeps_tickPend (hi ▸ hno m hm) hph hout' hpend
  · rw [hnext]
    exact hpend

/-- A tick leaves the pending bit set (R245). -/
theorem isRun_tickPend_of_tick (hr : IsRun ms r) (htick : ms m = .op .tick) : (r (m + 1)).tickPend = true := by
  have hex := hr m
  rw [htick] at hex
  obtain ⟨-, hnext⟩ := whenEnabled_next.1 hex
  rw [hnext]

/-- While a cycle is in progress the micro-operations it has still to run grow no more. -/
theorem isRun_opsLeft_antitone (hr : IsRun ms r) (hin : ∀ k, n ≤ k → (r k).cyc ≠ .idle) (hm : n ≤ m) :
    ∀ k, m ≤ k → opsLeft (r k).cyc ≤ opsLeft (r m).cyc := fun k hk => by
  induction k, hk using Nat.le_induction with
  | base => exact Nat.le_refl _
  | succ k hk ih =>
    exact isRun_next_of hr (P := fun u => opsLeft u.cyc ≤ opsLeft (r m).cyc) ih fun _ _ _ hex =>
      ((OpEffect.of_exec hex).opsLeft_le (hin k (by omega))).trans ih

/-- A cycle in progress is over some time: from where the fewest micro-operations are left, the next move that
continues the cycle would leave fewer (R301 (a)). -/
theorem eventually_outside (hr : IsRun ms r) (hfair : CycleFair ms r) (hrun : StaysIdleInRun r n) :
    ∃ m, n ≤ m ∧ (r m).cyc = .idle := by
  obtain ⟨-, hgoesOn⟩ := hfair
  by_contra hnever
  have hin : ∀ k, n ≤ k → (r k).cyc ≠ .idle := fun k hk hout => hnever ⟨k, hk, hout⟩
  obtain ⟨least, hleast⟩ := exists_minimalFor_of_wellFoundedLT (n ≤ ·) (fun k => opsLeft (r k).cyc) ⟨n, le_refl n⟩
  have hm : n ≤ least := hleast.prop
  obtain ⟨k, hk, hgoes⟩ := hgoesOn least fun j hj => hin j (hm.trans hj)
  have hnk : n ≤ k := hm.trans hk
  have hless : opsLeft (r (k + 1)).cyc < opsLeft (r k).cyc := by
    obtain ⟨i, hi, hex⟩ | ⟨hreq, -⟩ := runMove_cases (hr k)
    · exact (OpEffect.of_exec hex).opsLeft_lt (hi ▸ hgoes) (hrun k hnk).1 (hin k hnk)
    · simp [hreq, ContinuesCycle] at hgoes
  have hmono := isRun_opsLeft_antitone hr hin hm k hk
  exact hleast.not_lt (show n ≤ k + 1 by omega) (hless.trans_le hmono)

/-- If no cycle began any more, the one in progress would end, the next tick would stay pending, and a cycle would
be enabled for ever. -/
theorem eventually_ready (hfair : FairRun ms r) (h0 : ControlInv (r 0)) (hrun : StaysIdleInRun r n)
    (hno : BeginsNoCycle ms n) : ∃ m, n ≤ m ∧ ∀ k, m ≤ k → cycleReady (r k) = true := by
  obtain ⟨hr, hcycle, -, htimer⟩ := hfair
  obtain ⟨m, hm, hout⟩ := eventually_outside hr hcycle hrun
  have hstays : ∀ k, m ≤ k → (r k).cyc = .idle := fun k hk => by
    induction k, hk using Nat.le_induction with
    | base => exact hout
    | succ k hk ih => exact isRun_idle_stays hr hno (hm.trans hk) ih
  obtain ⟨j, hj, htick⟩ := htimer m fun k hk => (hrun k (hm.trans hk)).1
  have hpends : ∀ k, j + 1 ≤ k → (r k).tickPend = true := fun k hk => by
    induction k, hk using Nat.le_induction with
    | base => exact isRun_tickPend_of_tick hr htick
    | succ k hk ih => exact isRun_tickPend_stays hr hrun hno (by omega) (hstays k (by omega)) ih
  refine ⟨j + 1, by omega, fun k hk => ?_⟩
  obtain ⟨hph, hidle⟩ := hrun k (by omega)
  have hmask := mask_of_idle (isRun_controlInv hr h0 k) hidle
  exact cycleReady_iff.2 ⟨hph, hpends k hk, hmask, hstays k (by omega)⟩

end Runs

/-- Settles O20: the guard of the cycle, and weak fairness where a cycle is enabled for ever. -/
theorem cycleRunsExactlyWhenTaken : Obligations.CycleRunsExactlyWhenTaken := by
  refine ⟨fun s d => ?_, fun ms r n hfair h0 hrun => ?_⟩
  · simp only [exec_cycle_next, exists_and_left, exists_eq, and_true, cycleReady_iff]
  · by_contra hnone
    have hno : BeginsNoCycle ms n := fun m hm hbegins => hnone ⟨m, hm, hbegins⟩
    obtain ⟨m, hm, hready⟩ := eventually_ready hfair h0 hrun hno
    have ⟨_, ⟨hbegin, _⟩, _⟩ := hfair
    obtain ⟨k, hk, hbegins⟩ := hbegin m hready
    exact hno k (hm.trans hk) hbegins

end Sys2Proof.Proofs
end

section
/-! PROOFS. The unpacker (42_unpacker.md R160 to R165): an axis value is two fields side by side, the 30 source bits
of a frame are those fields, and the frame of R163 is made of them. -/

namespace Sys2Proof.Proofs

open Sys2Proof Sys2Proof.Machine Sys2Proof.Laws

/-! ### Two fields side by side (R160, R162) -/

section Fields

variable {m n : Nat}

/-- No bit of two fields side by side is dropped or duplicated (R162). -/
theorem append_eq_append_iff {a c : BitVec m} {b d : BitVec n} : a ++ b = c ++ d ↔ a = c ∧ b = d := by
  constructor
  · intro h
    have hhigh := congrArg (BitVec.extractLsb' n m) h
    have hlow := congrArg (BitVec.extractLsb' 0 n) h
    rw [BitVec.extractLsb'_append_eq_left, BitVec.extractLsb'_append_eq_left] at hhigh
    rw [BitVec.extractLsb'_append_eq_right, BitVec.extractLsb'_append_eq_right] at hlow
    exact ⟨hhigh, hlow⟩
  · rintro ⟨rfl, rfl⟩
    rfl

/-- The parts that a value is cut into are the fields it is made of (R163). -/
theorem parts_eq_iff {v : BitVec (m + n)} {a : BitVec m} {b : BitVec n} :
    v.extractLsb' n m = a ∧ v.extractLsb' 0 n = b ↔ v = a ++ b := by
  rw [← append_eq_append_iff, BitVec.extractLsb'_append_extractLsb']

end Fields

theorem lanes_eq_iff {α : Type} {v w : Lanes α} : v = w ↔ v.x = w.x ∧ v.y = w.y ∧ v.z = w.z := by
  cases v
  cases w
  rw [Lanes.mk.injEq]

/-! ### The source bits of a frame (R160, R162) -/

section SourceBits

variable {f g : Frame}

/-- The value of each axis from the bytes of the frame (R160). -/
theorem toNat_unpackFrame (f : Frame) :
    (unpackFrame f).x.toNat = f.b2.toNat * 4 + f.b5.toNat / 2 % 4 ∧
    (unpackFrame f).y.toNat = f.b3.toNat * 4 + f.b5.toNat / 8 % 4 ∧
    (unpackFrame f).z.toNat = f.b4.toNat * 4 + f.b5.toNat / 32 % 4 := by
  simp only [unpackFrame, xlOf, ylOf, zlOf, toNat_append_eq, toNat_extractLsb'_eq]
  exact ⟨rfl, rfl, rfl⟩

theorem unpackFrame_x_eq_iff : (unpackFrame f).x = (unpackFrame g).x ↔ f.b2 = g.b2 ∧ xlOf f.b5 = xlOf g.b5 :=
  append_eq_append_iff

theorem unpackFrame_y_eq_iff : (unpackFrame f).y = (unpackFrame g).y ↔ f.b3 = g.b3 ∧ ylOf f.b5 = ylOf g.b5 :=
  append_eq_append_iff

theorem unpackFrame_z_eq_iff : (unpackFrame f).z = (unpackFrame g).z ↔ f.b4 = g.b4 ∧ zlOf f.b5 = zlOf g.b5 :=
  append_eq_append_iff

/-- Bits 6 to 1 of byte 5 are the low bits of the three axes side by side: the axes use disjoint bits (R94, R162). -/
theorem middleBits_eq (b : Byte) : b.extractLsb' 1 6 = zlOf b ++ ylOf b ++ xlOf b := by
  have hzy : zlOf b ++ ylOf b = b.extractLsb' 3 4 := BitVec.extractLsb'_append_extractLsb'_eq_extractLsb' rfl
  have hzyx : b.extractLsb' 3 4 ++ xlOf b = b.extractLsb' 1 6 :=
    BitVec.extractLsb'_append_extractLsb'_eq_extractLsb' rfl
  rw [hzy, hzyx]

theorem middleBits_eq_iff {b c : Byte} :
    b.extractLsb' 1 6 = c.extractLsb' 1 6 ↔ zlOf b = zlOf c ∧ ylOf b = ylOf c ∧ xlOf b = xlOf c := by
  rw [middleBits_eq, middleBits_eq, append_eq_append_iff, append_eq_append_iff, and_assoc]

/-- Two frames unpack alike exactly if they agree in the 30 source bits (R162). -/
theorem unpackFrame_eq_iff : unpackFrame f = unpackFrame g ↔
    f.b2 = g.b2 ∧ f.b3 = g.b3 ∧ f.b4 = g.b4 ∧ f.b5.extractLsb' 1 6 = g.b5.extractLsb' 1 6 := by
  rw [lanes_eq_iff, unpackFrame_x_eq_iff, unpackFrame_y_eq_iff, unpackFrame_z_eq_iff, middleBits_eq_iff]
  tauto

end SourceBits

/-! ### The frame built for axis values (R163) -/

section PackedFrame

variable (v : Lanes Axis) (b0 b1 : Byte) (u7 ub : BitVec 1)

theorem unpackFrame_packFrame : unpackFrame (packFrame v b0 b1 u7 ub) = v := by
  obtain ⟨-, hzl, hyl, hxl, -⟩ :=
    fields_byte5Of u7 (v.z.extractLsb' 0 2) (v.y.extractLsb' 0 2) (v.x.extractLsb' 0 2) ub
  simp only [unpackFrame, packFrame, hzl, hyl, hxl]
  exact lanes_eq_iff.2 ⟨BitVec.extractLsb'_append_extractLsb', BitVec.extractLsb'_append_extractLsb',
    BitVec.extractLsb'_append_extractLsb'⟩

/-- Byte 5 is the sentinel's exactly if its fields are (R95). -/
theorem byte5Of_eq_sentinel_iff {u7 : BitVec 1} {zl yl xl : BitVec 2} {ub : BitVec 1} :
    byte5Of u7 zl yl xl ub = 0xFE ↔ u7 = 1 ∧ zl = 3 ∧ yl = 3 ∧ xl = 3 ∧ ub = 0 := byte5Of_eq_iff

/-- The low two bits of an axis value are both set exactly if it is 3 modulo 4. -/
theorem lowBits_eq_three_iff {a : Axis} : a.extractLsb' 0 2 = 3 ↔ a.toNat % 4 = 3 := by
  rw [← BitVec.toNat_inj, toNat_extractLsb'_eq, Nat.pow_zero, Nat.div_one]
  rfl

/-- The one axis value with the sentinel's byte on top of its two bits of byte 5 (R163). -/
theorem sentinelParts_iff {a : Axis} :
    a.extractLsb' 2 8 = 0xFE ∧ a.extractLsb' 0 2 = 3 ↔ a.toNat = 1019 :=
  parts_eq_iff.trans BitVec.toNat_inj.symm

theorem isSpike_packFrame : isSpike (packFrame v b0 b1 u7 ub) = true ↔
    v.z.toNat = 1019 ∧ v.x.toNat % 4 = 3 ∧ v.y.toNat % 4 = 3 ∧ u7 = 1 ∧ ub = 0 := by
  rw [isSpike_iff, ← sentinelParts_iff, ← lowBits_eq_three_iff, ← lowBits_eq_three_iff]
  simp only [packFrame, byte5Of_eq_sentinel_iff]
  tauto

end PackedFrame

/-- Settles O33: the fields of two frames compared axis by axis; a frame for every triple is the one of R163. -/
theorem unpackIsABijectionOfItsSourceBits : Obligations.UnpackIsABijectionOfItsSourceBits :=
  ⟨fun _ _ => ⟨unpackFrame_x_eq_iff, unpackFrame_y_eq_iff, unpackFrame_z_eq_iff, unpackFrame_eq_iff⟩,
    fun v => ⟨packFrame v 0 0 0 0, unpackFrame_packFrame v 0 0 0 0⟩⟩

/-- Settles O34: the fields of byte 5 come back, and the sentinel fixes the fields of byte 5 and all of z. -/
theorem packedFrameUnpacksToItsValues : Obligations.PackedFrameUnpacksToItsValues :=
  fun v b0 b1 u7 ub => ⟨unpackFrame_packFrame v b0 b1 u7 ub, isSpike_packFrame v b0 b1 u7 ub⟩

/-- Settles O24: the guard of `C_UNPACK`, and the value of each axis as numbers. -/
theorem unpackAssemblesTenBitAxes : Obligations.UnpackAssemblesTenBitAxes := by
  refine fun s => ⟨fun hcyc hrej => ?_, fun hnot t h => ?_⟩
  · exact ⟨unpackFrame s.fb, exec_cUnpack_next.2 ⟨⟨hcyc, hrej⟩, rfl⟩, toNat_unpackFrame s.fb⟩
  · obtain ⟨⟨hcyc, hrej⟩, -⟩ := exec_cUnpack_next.1 h
    simp [hcyc, hrej] at hnot

end Sys2Proof.Proofs
end

section
/-! PROOFS. The filter stage (43_filters.md R170 to R179): the store and the filter each at its place, the bounds of the
average, and what a sequence of ticks and cycles leaves. Under `MA` the M slots, read from the cursor on, are the last
M samples, oldest first; a cycle drops the oldest and appends its sample. -/

namespace Sys2Proof.Proofs

open Sys2Proof Sys2Proof.Machine Sys2Proof.Laws

/-! ### The store and the filter at their places (R146, R171 to R176) -/

/-- Settles O26: the store of the policy at its position; a slot read after the write of slot `CUR`. -/
theorem storeWritesTheSlotAtTheCursor : Obligations.StoreWritesTheSlotAtTheCursor := by
  refine fun s => ⟨fun k hcyc hpol => ?_, fun hcyc hpol => ?_, whenPosition_ne_next⟩
  · refine ⟨writeSlot s.buf s.cur s.samp, ?_, readSlot_writeSlot_same .., fun j hj => ?_⟩
    · rw [exec_cStore hcyc, microStore_ma hpol]
      rfl
    · rw [readSlot_writeSlot, if_neg hj.symm]
  · rw [exec_cStore hcyc, microStore_pt hpol]

/-- Settles O27: the guards of the two filters, and the value of the average in each lane. -/
theorem filterAveragesOrPasses : Obligations.FilterAveragesOrPasses := by
  refine fun s => ⟨fun k hpol hcyc => ?_, fun hpol hcyc => exec_cPass_next.2 ⟨⟨hcyc, hpol⟩, rfl⟩,
    fun hnot t h => ?_, fun hnot t h => ?_⟩
  · refine ⟨⟨average (.ma k) s.buf.x, average (.ma k) s.buf.y, average (.ma k) s.buf.z⟩, ?_,
      toNat_average k _, toNat_average k _, toNat_average k _⟩
    exact exec_cAvg_next.2 ⟨⟨hcyc, by simp [hpol]⟩, by rw [microAvg, hpol]⟩
  · obtain ⟨⟨hcyc, hma⟩, -⟩ := exec_cAvg_next.1 h
    exact hnot.elim (absurd hcyc) hma
  · obtain ⟨⟨hcyc, hpt⟩, -⟩ := exec_cPass_next.1 h
    simp [hcyc, hpt] at hnot

/-! ### The average (R174, R175) -/

section Average

variable {k lo hi : Nat} {b : Sparse Axis}

/-- Half of M added before the division by M is half added to the quotient, in twice the numbers (R174). -/
theorem add_half_div_eq (k n : Nat) : (n + 2 ^ k) / 2 ^ (k + 1) = (2 * n + 2 ^ (k + 1)) / (2 * 2 ^ (k + 1)) := by
  have hdouble : 2 * n + 2 ^ (k + 1) = 2 * (n + 2 ^ k) := by rw [Nat.pow_succ]; omega
  rw [hdouble, Nat.mul_div_mul_left _ _ (by decide)]

/-- Rounding does not leave the interval of the mean (R175). -/
theorem add_half_div_between {n : Nat} (hlo : 2 ^ (k + 1) * lo ≤ n) (hhi : n ≤ 2 ^ (k + 1) * hi) :
    lo ≤ (n + 2 ^ k) / 2 ^ (k + 1) ∧ (n + 2 ^ k) / 2 ^ (k + 1) ≤ hi := by
  have hpow : 2 ^ (k + 1) = 2 ^ k * 2 := Nat.pow_succ ..
  have hpos := Nat.two_pow_pos k
  constructor
  · rw [Nat.le_div_iff_mul_le (Nat.two_pow_pos _), Nat.mul_comm]
    omega
  · rw [Nat.div_le_iff_le_mul_add_pred (Nat.two_pow_pos _)]
    omega

/-- The sum of M slots lies between M times any bounds of a slot. -/
theorem sumSlots_between {m : Nat}
    (h : ∀ i, i < m → lo ≤ (sparseRead 0 b i).toNat ∧ (sparseRead 0 b i).toNat ≤ hi) :
    m * lo ≤ sumSlots b m ∧ sumSlots b m ≤ m * hi := by
  induction m with
  | zero => simp [sumSlots]
  | succ m ih =>
    obtain ⟨hlo, hhi⟩ := ih fun i hlt => h i (Nat.lt_succ_of_lt hlt)
    obtain ⟨hlast, hlast'⟩ := h m (Nat.lt_succ_self m)
    simp only [sumSlots, Nat.succ_mul]
    omega

end Average

/-- Settles O35: the quotient with its half in twice the numbers, and the bounds of the sum. -/
theorem averageRoundsHalfUpWithinTheSlots : Obligations.AverageRoundsHalfUpWithinTheSlots := by
  refine fun k lo hi b => ⟨(toNat_average k b).trans (add_half_div_eq k _), fun hslots => ?_⟩
  obtain ⟨hlo, hhi⟩ := sumSlots_between hslots
  rw [toNat_average, ← sumSlots_eq_sum]
  exact add_half_div_between hlo hhi

/-! ### The slots from the cursor on (R171, R172, R178) -/

section RecentSlots

variable {k : Nat} {s : State} {d : Frame}

/-- The first `m` slots of the three buffers. -/
def slots (m : Nat) (b : Lanes (Sparse Axis)) : List (Lanes Axis) := (List.range m).map (readSlot b)

@[simp] theorem slots_length (m : Nat) (b : Lanes (Sparse Axis)) : (slots m b).length = m := by simp [slots]

theorem slots_writeSlot (m i : Nat) (b : Lanes (Sparse Axis)) (v : Lanes Axis) :
    slots m (writeSlot b i v) = (slots m b).set i v := by
  refine List.ext_getElem (by simp) fun j _ _ => ?_
  simp [slots, readSlot_writeSlot, List.getElem_set]

/-- The slots of empty buffers (R43). -/
theorem slots_empty (m : Nat) : slots m (lanesOf []) = List.replicate m (lanesOf 0) := by
  rw [slots, List.eq_replicate_iff]
  refine ⟨by simp, fun v hv => ?_⟩
  obtain ⟨i, -, rfl⟩ := List.mem_map.1 hv
  rfl

/-- Writing at the start of a rotated list and rotating once more drops its head and appends the value. -/
theorem rotate_set_succ {α : Type} {l : List α} {i : Nat} (v : α) (h : i < l.length) :
    (l.set i v).rotate (i + 1) = (l.rotate i).tail ++ [v] := by
  have hne : l.drop i ≠ [] := by simpa using h
  rw [List.rotate_eq_drop_append_take (by simpa using h), List.rotate_eq_drop_append_take h.le,
    List.tail_append_of_ne_nil hne, List.tail_drop, List.drop_set_of_lt (Nat.lt_succ_self i),
    List.take_succ_eq_append_getElem (by simpa using h), List.take_set_of_le (Nat.le_refl i),
    List.getElem_set_self, List.append_assoc]

/-- The M slots from the cursor on: the samples they hold, oldest first. -/
def recentSlots (k : Nat) (s : State) : List (Lanes Axis) := (slots (2 ^ (k + 1)) s.buf).rotate s.cur

/-- A cycle drops the oldest slot and appends its sample (R171, R172). -/
theorem recentSlots_cycleBody (hpol : s.cfg.policy = .ma k) (hcur : s.cur < 2 ^ (k + 1)) :
    recentSlots k (cycleBody d s) = (recentSlots k s).tail ++ [(cycleBody d s).samp] := by
  obtain ⟨hbuf, hnext, -, -, -⟩ := cycleBody_ma (d := d) hpol
  have hlen : (slots (2 ^ (k + 1)) s.buf).length = 2 ^ (k + 1) := slots_length ..
  calc recentSlots k (cycleBody d s)
      = ((slots (2 ^ (k + 1)) s.buf).set s.cur (cycleBody d s).samp).rotate ((s.cur + 1) % 2 ^ (k + 1)) := by
        rw [recentSlots, hbuf, hnext, slots_writeSlot]
        rfl
    _ = ((slots (2 ^ (k + 1)) s.buf).set s.cur (cycleBody d s).samp).rotate (s.cur + 1) := by
        rw [← List.rotate_mod _ (s.cur + 1), List.length_set, hlen]
    _ = (recentSlots k s).tail ++ [(cycleBody d s).samp] := rotate_set_succ _ (hlen.symm ▸ hcur)

/-- The average takes the slots in any order, so from the cursor on as well. -/
theorem sum_recentSlots (k : Nat) (s : State) (lane : Lanes Axis → Nat) :
    ((recentSlots k s).map lane).sum = ((List.range (2 ^ (k + 1))).map fun i => lane (readSlot s.buf i)).sum := by
  rw [recentSlots, ((List.rotate_perm _ _).map lane).sum_eq, slots, List.map_map]
  rfl

end RecentSlots

/-! ### The carried sample and the sequence of samples (R145, R148) -/

section Samples

variable {s : State} {d : Frame}

/-- Under `MA` the cursor is a slot index (R37). -/
def CursorInRange (s : State) : Prop := ∀ k, s.cfg.policy = .ma k → s.cur < 2 ^ (k + 1)

theorem cursorInRange_cycleBody (d : Frame) (s : State) : CursorInRange (cycleBody d s) := by
  intro k hpol
  obtain ⟨-, hnext, -⟩ := cycleBody_ma (d := d) ((cycleBody_cfg d s) ▸ hpol)
  exact hnext ▸ nextSlot_lt _ _

/-- The slot before the next one is the slot itself (R61, R172). -/
theorem prevSlot_nextSlot {k i : Nat} (h : i < 2 ^ (k + 1)) : prevSlot (.ma k) (nextSlot (.ma k) i) = i := by
  change ((i + 1) % 2 ^ (k + 1) + (2 ^ (k + 1) - 1)) % 2 ^ (k + 1) = i
  have hwrap : i + 1 + (2 ^ (k + 1) - 1) = i + 2 ^ (k + 1) := by omega
  rw [Nat.mod_add_mod, hwrap, Nat.add_mod_right, Nat.mod_eq_of_lt h]

/-- A rejected frame repeats the sample of the cycle before (R145, R148). -/
theorem carriedSample_cycleBody (h : CursorInRange s) : carriedSample (cycleBody d s) = (cycleBody d s).samp := by
  cases hpol : s.cfg.policy with
  | ma k =>
    obtain ⟨hbuf, hnext, -⟩ := cycleBody_ma (d := d) hpol
    rw [carriedSample_ma ((cycleBody_cfg d s).symm ▸ hpol), hbuf, hnext, prevSlot_nextSlot (h k hpol),
      readSlot_writeSlot_same]
  | pt =>
    obtain ⟨-, -, hlat, -⟩ := cycleBody_pt (d := d) hpol
    rw [carriedSample_pt ((cycleBody_cfg d s).symm ▸ hpol), hlat]

end Samples

/-! ### Ticks and the cycles they cause (R103, R140, R245) -/

section TickCycles

variable {k : Nat} {s : State} {f : Frame} {fs : List Frame}

/-- Where a tick occurs and a cycle follows it: in `PH_RUN`, with the timer on, no hold and no cycle in progress. -/
structure TakesTicks (s : State) : Prop where
  run : s.ph = .run
  timer : s.acqEn = true
  unmasked : s.mask = false
  idle : s.cyc = .idle

/-- The state after a tick and the cycle it causes. -/
def afterTickCycle (s : State) (f : Frame) : State := cycleBody f { s with tickPend := true }

theorem runOps_tickCycle (h : TakesTicks s) : runOps (tickCycle f) s = some (afterTickCycle s f) := by
  refine runOps_cons_of_next (whenEnabled_of_true h.timer) ?_
  exact runOps_cons_of_next (exec_cycle_next.2 ⟨cycleReady_iff.2 ⟨h.run, rfl, h.unmasked, h.idle⟩, rfl⟩) rfl

theorem takesTicks_afterTickCycle (h : TakesTicks s) : TakesTicks (afterTickCycle s f) := by
  rw [afterTickCycle, cycleBody_frame]
  exact ⟨h.run, h.timer, h.unmasked, rfl⟩

/-- The ticks and cycles of a sequence of frames run to the end. -/
theorem runOps_tickCycles (h : TakesTicks s) :
    runOps (fs.flatMap tickCycle) s = some (fs.foldl afterTickCycle s) := by
  induction fs generalizing s with
  | nil => rfl
  | cons f fs ih =>
    rw [List.flatMap_cons, runOps_append, runOps_tickCycle h, Option.bind_some, ih (takesTicks_afterTickCycle h),
      List.foldl_cons]

@[simp] theorem afterTickCycle_cfg (s : State) (f : Frame) : (afterTickCycle s f).cfg = s.cfg := cycleBody_cfg ..

@[simp] theorem foldl_afterTickCycle_cfg (s : State) (fs : List Frame) :
    (fs.foldl afterTickCycle s).cfg = s.cfg := by
  induction fs generalizing s with
  | nil => rfl
  | cons f fs ih => rw [List.foldl_cons, ih, afterTickCycle_cfg]

theorem cursorInRange_afterTickCycle (s : State) (f : Frame) : CursorInRange (afterTickCycle s f) :=
  cursorInRange_cycleBody _ _

theorem carriedSample_afterTickCycle (h : CursorInRange s) :
    carriedSample (afterTickCycle s f) = (afterTickCycle s f).samp :=
  carriedSample_cycleBody (s := { s with tickPend := true }) h

/-- The first sample of a sequence is that of its first cycle, which the next cycle carries. -/
theorem samplesOf_carriedSample_cons (h : CursorInRange s) :
    samplesOf (carriedSample s) (f :: fs) =
      (afterTickCycle s f).samp :: samplesOf (carriedSample (afterTickCycle s f)) fs := by
  have hsamp : (afterTickCycle s f).samp = if isSpike f then carriedSample s else unpackFrame f := cycleBody_samp ..
  rw [carriedSample_afterTickCycle h, hsamp, samplesOf]

@[simp] theorem samplesOf_length (v : Lanes Axis) (fs : List Frame) : (samplesOf v fs).length = fs.length := by
  induction fs generalizing v with
  | nil => rfl
  | cons f fs ih => simp [samplesOf, ih]

/-- What the next rejected frame repeats is the last sample (R145). -/
theorem getLast?_samplesOf (h : CursorInRange s) :
    (carriedSample s :: samplesOf (carriedSample s) fs).getLast? =
      some (carriedSample (fs.foldl afterTickCycle s)) := by
  induction fs generalizing s with
  | nil => rfl
  | cons f fs ih =>
    rw [samplesOf_carriedSample_cons h, List.getLast?_cons_cons, ← carriedSample_afterTickCycle h,
      ih (cursorInRange_afterTickCycle s f), List.foldl_cons]

/-- The cursor counts the cycles modulo M (R172). -/
theorem cur_foldl_afterTickCycle (hpol : s.cfg.policy = .ma k) (hcur : s.cur < 2 ^ (k + 1)) :
    (fs.foldl afterTickCycle s).cur = (s.cur + fs.length) % 2 ^ (k + 1) := by
  induction fs generalizing s with
  | nil => exact (Nat.mod_eq_of_lt hcur).symm
  | cons f fs ih =>
    have hpol' : (afterTickCycle s f).cfg.policy = .ma k := (afterTickCycle_cfg s f).symm ▸ hpol
    obtain ⟨-, hnext, -⟩ := cycleBody_ma (d := f) (s := { s with tickPend := true }) hpol
    have hstep : (afterTickCycle s f).cur = (s.cur + 1) % 2 ^ (k + 1) := hnext
    rw [List.foldl_cons, ih hpol' (cursorInRange_afterTickCycle s f k hpol'), hstep, Nat.mod_add_mod,
      List.length_cons, Nat.add_assoc, Nat.add_comm 1]

/-- After the cycles the M slots hold the last M of what they held before and the samples (R178). -/
theorem recentSlots_foldl_afterTickCycle (hpol : s.cfg.policy = .ma k) (hcur : CursorInRange s) :
    recentSlots k (fs.foldl afterTickCycle s) =
      (recentSlots k s ++ samplesOf (carriedSample s) fs).drop fs.length := by
  induction fs generalizing s with
  | nil => simp [samplesOf]
  | cons f fs ih =>
    have hpol' : (afterTickCycle s f).cfg.policy = .ma k := (afterTickCycle_cfg s f).symm ▸ hpol
    have hne : recentSlots k s ≠ [] := by simp [recentSlots, ← List.length_pos_iff_ne_nil]
    have hstep : recentSlots k (afterTickCycle s f) = (recentSlots k s).tail ++ [(afterTickCycle s f).samp] :=
      recentSlots_cycleBody (s := { s with tickPend := true }) hpol (hcur k hpol)
    rw [List.foldl_cons, ih hpol' (cursorInRange_afterTickCycle s f), hstep, samplesOf_carriedSample_cons hcur,
      List.length_cons, ← List.drop_tail, List.tail_append_of_ne_nil hne, List.append_assoc, List.singleton_append]

/-- The window of a lane of the samples is that lane of the window, where zeros stand before the first (R178, R179). -/
theorem windowSum_map (m : Nat) (vs : List (Lanes Axis)) {lane : Lanes Axis → Nat} (hzero : lane (lanesOf 0) = 0) :
    windowSum m (vs.map lane) = (((List.replicate m (lanesOf 0) ++ vs).drop vs.length).map lane).sum := by
  rw [windowSum, List.map_drop, List.map_append, List.map_replicate, hzero, List.length_map]

/-- From empty buffers the slots add up to the window of the samples, in each lane (R178, R179). -/
theorem sum_slots_eq_windowSum (hpol : s.cfg.policy = .ma k) (hbuf : s.buf = lanesOf []) (hcur : s.cur = 0)
    {lane : Lanes Axis → Nat} (hzero : lane (lanesOf 0) = 0) :
    ((List.range (2 ^ (k + 1))).map fun i => lane (readSlot (fs.foldl afterTickCycle s).buf i)).sum =
      windowSum (2 ^ (k + 1)) ((samplesOf (lanesOf 0) fs).map lane) := by
  have hslots : recentSlots k s = List.replicate (2 ^ (k + 1)) (lanesOf 0) := by
    rw [recentSlots, hbuf, slots_empty, List.rotate_replicate]
  have hcarried : carriedSample s = lanesOf 0 := by
    rw [carriedSample_ma hpol, hbuf]
    rfl
  have hrange : CursorInRange s := fun _ _ => hcur ▸ Nat.two_pow_pos _
  rw [← sum_recentSlots, recentSlots_foldl_afterTickCycle hpol hrange, hslots, hcarried, windowSum_map _ _ hzero,
    samplesOf_length]

end TickCycles

/-- Settles O31: the last cycle publishes the mean of the slots, and the slots are the window of the samples. -/
theorem publishedIsTheMeanOfTheLastSamples : Obligations.PublishedIsTheMeanOfTheLastSamples := by
  intro k fs s hpol hrun htimer hmask hcyc hbuf hcur hne
  refine ⟨fs.foldl afterTickCycle s, runOps_tickCycles ⟨hrun, htimer, hmask, hcyc⟩, ?_, ?_⟩
  · rw [cur_foldl_afterTickCycle hpol (hcur ▸ Nat.two_pow_pos _), hcur, Nat.zero_add]
  · rw [← sum_slots_eq_windowSum hpol hbuf hcur (lane := fun v => v.x.toNat) rfl,
      ← sum_slots_eq_windowSum hpol hbuf hcur (lane := fun v => v.y.toNat) rfl,
      ← sum_slots_eq_windowSum hpol hbuf hcur (lane := fun v => v.z.toNat) rfl]
    obtain ⟨gs, g, rfl⟩ := (List.eq_nil_or_concat' fs).resolve_left hne
    rw [List.foldl_concat]
    obtain ⟨hx, hy, hz⟩ := cycleBody_pub_ma (d := g) (s := { gs.foldl afterTickCycle s with tickPend := true })
      ((congrArg Build.policy (foldl_afterTickCycle_cfg s gs)).trans hpol)
    exact ⟨hx.trans (toNat_average k _), hy.trans (toNat_average k _), hz.trans (toNat_average k _)⟩

/-- Settles O32: the latest-sample slot is what the next cycle carries, and the last cycle publishes it. -/
theorem passthroughPublishesTheLastSample : Obligations.PassthroughPublishesTheLastSample := by
  intro fs f s hpol hrun htimer hmask hcyc
  have hpol' : (fs.foldl afterTickCycle s).cfg.policy = .pt := (foldl_afterTickCycle_cfg s fs).symm ▸ hpol
  have hrange : CursorInRange s := fun k hma => Policy.noConfusion (hpol.symm.trans hma)
  refine ⟨(fs ++ [f]).foldl afterTickCycle s, runOps_tickCycles ⟨hrun, htimer, hmask, hcyc⟩, ?_, ?_⟩
  · have hne : samplesOf s.lat (fs ++ [f]) ≠ [] := by simp [← List.length_pos_iff_ne_nil]
    have hlast := getLast?_samplesOf (fs := fs ++ [f]) hrange
    rw [carriedSample_pt hpol, List.getLast?_cons_of_ne_nil hne,
      carriedSample_pt (by rw [foldl_afterTickCycle_cfg, hpol])] at hlast
    exact hlast.symm
  · rw [List.foldl_concat]
    obtain ⟨-, -, hlat, -, -⟩ :=
      cycleBody_pt (d := f) (s := { fs.foldl afterTickCycle s with tickPend := true }) hpol'
    rw [afterTickCycle, hlat]
    exact cycleBody_pub_pt hpol'

end Sys2Proof.Proofs
end

section
/-! PROOFS. The IIR transform (44_iir.md R190 to R199): one step is the floor of the exact sum with the history
shifted, a sequence threads the history through its steps, and a caller that runs the operations `IIR_STEP` gets
what `IIR_SEQ` gives. -/

namespace Sys2Proof.Proofs

open Sys2Proof Sys2Proof.Machine Sys2Proof.Laws

/-! ### One step (R193, R197) -/

section OneStep

variable {s t : State} {h h' : IirHistory} {x : Axis} {y : Int}

theorem exec_iirStep_of_ok (hok : iirNext s.cfg h x = .ok (h', y)) :
    exec (.iirStep h x) s = .next { s with iirHist := h', iirOut := y } :=
  execIirStep_next.2 ⟨_, _, hok, rfl⟩

theorem exec_iirStep_of_error {e : Refusal} (herr : iirNext s.cfg h x = .error e) :
    exec (.iirStep h x) s = .refused e := by
  change execIirStep h x s = .refused e
  unfold execIirStep
  simp only [herr]

/-- The arithmetic shift right by `q` is the floor of the quotient by `2^q` (R193). -/
theorem shiftRight_eq_of_floor {acc : Int} {q : Nat} (hlo : y * 2 ^ q ≤ acc) (hhi : acc < (y + 1) * 2 ^ q) :
    acc >>> q = y := by
  have hpow : ((2 ^ q : Nat) : Int) = 2 ^ q := by norm_cast
  rw [Int.shiftRight_eq_div_pow, hpow, Int.ediv_eq_iff_of_pos (by positivity)]
  exact ⟨hlo, by rwa [Int.add_mul, Int.one_mul] at hhi⟩

end OneStep

/-- Settles O48: the shift is the floor, and a step runs exactly where its output fits. -/
theorem iirStepFloorsTheExactSum : Obligations.IirStepFloorsTheExactSum := by
  refine ⟨?_, fun _ _ => heldHistory_of_fits, fun _ _ => heldEntry_of_fits, fitsBits_heldEntry⟩
  rintro s h _ x _ y rfl rfl hlo hhi
  have hfloor : iirAcc s.cfg.iir (heldHistory s.cfg.iirW h) x.toNat >>> s.cfg.iir.q = y :=
    shiftRight_eq_of_floor hlo hhi
  refine ⟨fun hfits => exec_iirStep_of_ok (iirNext_ok.2 ⟨hfloor.symm, hfits, rfl⟩), fun hwide t hnext => ?_⟩
  obtain ⟨_, z, hok, -⟩ := execIirStep_next.1 hnext
  obtain ⟨hz, hfits, -⟩ := iirNext_ok.1 hok
  rw [hz, hfloor, hwide] at hfits
  exact Bool.noConfusion hfits

/-! ### What every step keeps of the result (R38, R197) -/

/-- Only `IIR_STEP` writes the result, and what it writes fits; a reset leaves it (R38). -/
theorem OpEffect.keeps_historiesOk {s t : State} {i : Instr} (h : OpEffect s i t) (hs : historiesOk s = true) :
    historiesOk t = true := by
  cases h with
  | iirStep hok => exact (Bool.and_eq_true _ _).mpr (iirNext_fits hok)
  | _ => exact hs

/-- Settles O58: the result does not depend on the schedule, the choice counter or the request line. -/
theorem stepKeepsTheIirHistories : Obligations.StepKeepsTheIirHistories := fun _ _ =>
  step_keeps (P := fun s => historiesOk s = true) (fun _ _ hs => hs) (fun _ _ hs => hs) (fun _ hs => hs)
    fun _ _ _ => OpEffect.keeps_historiesOk

/-! ### A sequence as a function (R194 to R196)

The lemmas per step below unfold by `eq_def`: the equations per case that `rw [iirSeq]` would derive time out in
evaluating the step's arithmetic. -/

section Sequence

variable {c : Build} {h h' h'' : IirHistory} {x : Axis} {xs : List Axis} {y : Int} {ys : List Int} {e : Refusal}

@[simp] theorem iirSeq_nil (c : Build) (h : IirHistory) : iirSeq c h [] = .ok ([], h) := rfl

theorem iirSeq_cons_of_ok (hok : iirNext c h x = .ok (h', y)) (xs : List Axis) :
    iirSeq c h (x :: xs) = (iirSeq c h' xs).map fun p => (y :: p.1, p.2) := by
  rw [iirSeq.eq_def]
  simp only [hok]
  cases iirSeq c h' xs <;> rfl

theorem iirSeq_cons_of_error (herr : iirNext c h x = .error e) (xs : List Axis) :
    iirSeq c h (x :: xs) = .error e := by
  rw [iirSeq.eq_def]
  simp only [herr]

/-- A sequence that is not refused is its first step and the sequence from the history this step leaves. -/
theorem iirSeq_cons_ok :
    iirSeq c h (x :: xs) = .ok (ys, h'') ↔
      ∃ h' y zs, iirNext c h x = .ok (h', y) ∧ iirSeq c h' xs = .ok (zs, h'') ∧ ys = y :: zs := by
  cases hnext : iirNext c h x with
  | error e => simp [iirSeq_cons_of_error hnext]
  | ok p =>
    obtain ⟨g, z⟩ := p
    rw [iirSeq_cons_of_ok hnext]
    cases hseq : iirSeq c g xs with
    | error e => simp [hseq, Except.map]
    | ok q =>
      obtain ⟨zs, g'⟩ := q
      simp [hseq, Except.map, eq_comm, and_comm]

theorem iirSeq_singleton_of_ok (hok : iirNext c h x = .ok (h', y)) : iirSeq c h [x] = .ok ([y], h') :=
  iirSeq_cons_of_ok hok []

/-- The output is as long as the input (R194). -/
theorem length_of_iirSeq_ok (hseq : iirSeq c h xs = .ok (ys, h')) : ys.length = xs.length := by
  induction xs generalizing h ys with
  | nil =>
    cases hseq
    rfl
  | cons x xs ih =>
    obtain ⟨_, _, _, -, htail, rfl⟩ := iirSeq_cons_ok.1 hseq
    rw [List.length_cons, List.length_cons, ih htail]

/-- What follows a sequence is a sequence from the history it leaves (R195). -/
theorem iirSeq_append_of_ok (hseq : iirSeq c h xs = .ok (ys, h')) (zs : List Axis) :
    iirSeq c h (xs ++ zs) = (iirSeq c h' zs).map fun p => (ys ++ p.1, p.2) := by
  induction xs generalizing h ys with
  | nil =>
    cases hseq
    rw [List.nil_append]
    cases iirSeq c h' zs <;> rfl
  | cons x xs ih =>
    obtain ⟨_, _, _, hok, htail, rfl⟩ := iirSeq_cons_ok.1 hseq
    rw [List.cons_append, iirSeq_cons_of_ok hok, ih htail]
    cases iirSeq c h' zs <;> rfl

/-- Nothing follows a refused step (R197). -/
theorem iirSeq_append_of_error (hseq : iirSeq c h xs = .error e) (zs : List Axis) :
    iirSeq c h (xs ++ zs) = .error e := by
  induction xs generalizing h with
  | nil => cases hseq
  | cons x xs ih =>
    rw [List.cons_append]
    cases hnext : iirNext c h x with
    | error e' =>
      rw [iirSeq_cons_of_error hnext] at hseq ⊢
      exact hseq
    | ok p =>
      obtain ⟨g, z⟩ := p
      rw [iirSeq_cons_of_ok hnext] at hseq ⊢
      cases htail : iirSeq c g xs with
      | ok q =>
        rw [htail] at hseq
        cases hseq
      | error e' =>
        rw [htail] at hseq
        cases hseq
        rw [ih htail]
        rfl

theorem iirSeq_append_ok {zs : List Axis} {ys' : List Int} (hseq : iirSeq c h xs = .ok (ys, h'))
    (hseq' : iirSeq c h' zs = .ok (ys', h'')) : iirSeq c h (xs ++ zs) = .ok (ys ++ ys', h'') := by
  rw [iirSeq_append_of_ok hseq, hseq']
  rfl

end Sequence

/-! ### A caller's run of `IIR_STEP` (R103, R194, R195, R226) -/

section Caller

variable {s t : State} {h h' : IirHistory} {x : Axis} {xs : List Axis} {y : Int} {ys : List Int}

@[simp] theorem callIirSeq_nil_eq_some : callIirSeq h [] s = some (ys, t) ↔ ys = [] ∧ t = s := by
  rw [callIirSeq.eq_def]
  simp [eq_comm]

theorem callIirSeq_cons_of_ok (hok : iirNext s.cfg h x = .ok (h', y)) (xs : List Axis) :
    callIirSeq h (x :: xs) s =
      (callIirSeq h' xs { s with iirHist := h', iirOut := y }).map fun p => (y :: p.1, p.2) := by
  rw [callIirSeq.eq_def]
  simp only [exec_iirStep_of_ok hok]
  cases callIirSeq h' xs { s with iirHist := h', iirOut := y } <;> rfl

/-- A refused step refuses the call (R197). -/
theorem callIirSeq_cons_of_error {e : Refusal} (herr : iirNext s.cfg h x = .error e) (xs : List Axis) :
    callIirSeq h (x :: xs) s = none := by
  rw [callIirSeq.eq_def]
  simp only [exec_iirStep_of_error herr]

/-- A call that runs to the end is its first step and the call on the rest with the history found on the port. -/
theorem callIirSeq_cons_eq_some :
    callIirSeq h (x :: xs) s = some (ys, t) ↔
      ∃ h' y zs, iirNext s.cfg h x = .ok (h', y) ∧
        callIirSeq h' xs { s with iirHist := h', iirOut := y } = some (zs, t) ∧ ys = y :: zs := by
  cases hnext : iirNext s.cfg h x with
  | error e => simp [callIirSeq_cons_of_error hnext]
  | ok p =>
    obtain ⟨g, z⟩ := p
    rw [callIirSeq_cons_of_ok hnext]
    simp [eq_comm, and_comm]

/-- A step overwrites the port without reading it (R199), so a call that takes a step may find any history there. -/
theorem callIirSeq_of_port (g h : IirHistory) (hne : xs ≠ []) :
    callIirSeq h xs { s with iirHist := g } = callIirSeq h xs s := by
  cases xs with
  | nil => exact absurd rfl hne
  | cons x xs =>
    cases hnext : iirNext s.cfg h x with
    | error e => rw [callIirSeq_cons_of_error hnext, callIirSeq_cons_of_error (s := { s with iirHist := g }) hnext]
    | ok p => rw [callIirSeq_cons_of_ok hnext, callIirSeq_cons_of_ok (s := { s with iirHist := g }) hnext]

/-- A call with the history on the port is `IIR_SEQ`: it leaves there the final history, and the last output. -/
theorem callIirSeq_port_eq_some :
    callIirSeq s.iirHist xs s = some (ys, t) ↔
      ∃ h', iirSeq s.cfg s.iirHist xs = .ok (ys, h') ∧
        t = { s with iirHist := h', iirOut := ys.getLastD s.iirOut } := by
  induction xs generalizing s t ys with
  | nil =>
    rw [callIirSeq_nil_eq_some]
    constructor
    · rintro ⟨rfl, rfl⟩
      exact ⟨_, rfl, rfl⟩
    · rintro ⟨_, hseq, rfl⟩
      cases hseq
      exact ⟨rfl, rfl⟩
  | cons x xs ih =>
    rw [callIirSeq_cons_eq_some]
    constructor
    · rintro ⟨h₁, y, zs, hok, hcall, rfl⟩
      obtain ⟨h', hseq, rfl⟩ := (ih (s := { s with iirHist := h₁, iirOut := y })).1 hcall
      exact ⟨h', iirSeq_cons_ok.2 ⟨h₁, y, zs, hok, hseq, rfl⟩, by rw [List.getLastD_cons]⟩
    · rintro ⟨h', hseq, rfl⟩
      obtain ⟨h₁, y, zs, hok, htail, rfl⟩ := iirSeq_cons_ok.1 hseq
      refine ⟨h₁, y, zs, hok, ?_, rfl⟩
      rw [List.getLastD_cons]
      exact (ih (s := { s with iirHist := h₁, iirOut := y })).2 ⟨h', htail, rfl⟩

/-- A call that takes a step is `IIR_SEQ` from the history the caller passes. -/
theorem callIirSeq_eq_some (hne : xs ≠ []) :
    callIirSeq h xs s = some (ys, t) ↔
      ∃ h', iirSeq s.cfg h xs = .ok (ys, h') ∧
        t = { s with iirHist := h', iirOut := ys.getLastD s.iirOut } := by
  rw [← callIirSeq_of_port h h hne]
  exact callIirSeq_port_eq_some (s := { s with iirHist := h })

theorem iirSeqOps_cons_of_ok {c : Build} (hok : iirNext c h x = .ok (h', y)) (xs : List Axis) :
    iirSeqOps c h (x :: xs) = .iirStep h x :: iirSeqOps c h' xs := by
  rw [iirSeqOps.eq_def]
  simp only [hok]

/-- The operations of a call are R103's expansion of `IIR_SEQ`. -/
theorem runOps_iirSeqOps (hcall : callIirSeq h xs s = some (ys, t)) : runOps (iirSeqOps s.cfg h xs) s = some t := by
  induction xs generalizing h s ys with
  | nil =>
    obtain ⟨-, rfl⟩ := callIirSeq_nil_eq_some.1 hcall
    rfl
  | cons x xs ih =>
    obtain ⟨h', y, zs, hok, htail, -⟩ := callIirSeq_cons_eq_some.1 hcall
    rw [iirSeqOps_cons_of_ok hok]
    exact runOps_cons_of_next (exec_iirStep_of_ok hok) (ih htail)

end Caller

/-- Settles O49: a further sample is a sequence of one appended, and a caller's run is `IIR_SEQ`. -/
theorem iirSequenceThreadsTheHistory : Obligations.IirSequenceThreadsTheHistory := by
  refine ⟨iirSeq_nil, fun _ _ _ _ _ => length_of_iirSeq_ok, ?_, ?_, ?_, ?_, fun _ _ _ _ _ => runOps_iirSeqOps⟩
  · exact fun _ _ _ _ _ _ _ _ hseq hok => iirSeq_append_ok hseq (iirSeq_singleton_of_ok hok)
  · intro _ _ _ _ _ x _ hseq herr
    rw [iirSeq_append_of_ok hseq, iirSeq_cons_of_error herr]
    rfl
  · exact fun _ _ _ x _ hseq => iirSeq_append_of_error hseq [x]
  · intro s t h x xs ys y
    rw [callIirSeq_eq_some (List.concat_ne_nil x xs), List.getLastD_concat]

/-- Settles O50: both calls are `IIR_SEQ`, which continues from the history that the first leaves on the port. -/
theorem iirSequenceContinues : Obligations.IirSequenceContinues := by
  refine ⟨fun _ _ _ _ _ _ _ _ => iirSeq_append_ok, ?_⟩
  intro s t u h xs xs' ys ys' hne hcall hcall'
  obtain ⟨h', hseq, rfl⟩ := (callIirSeq_eq_some hne).1 hcall
  obtain ⟨h'', hseq', rfl⟩ := callIirSeq_port_eq_some.1 hcall'
  have hlast : (ys ++ ys').getLastD s.iirOut = ys'.getLastD (ys.getLastD s.iirOut) := by
    simp only [List.getLastD_eq_getLast?, List.getLast?_append, Option.getD_or]
  refine (callIirSeq_eq_some (List.append_ne_nil_of_left_ne_nil hne xs')).2 ⟨h'', iirSeq_append_ok hseq hseq', ?_⟩
  rw [hlast]

end Sys2Proof.Proofs
end

section
/-! PROOFS. The sample latch (45_sample_latch.md R210 to R217): the publish and the five events of `latest()`, each
exactly at its place, and the five in a row as one whole read. -/

namespace Sys2Proof.Proofs

open Sys2Proof Sys2Proof.Machine Sys2Proof.Laws

/-- Settles O28: the position of the publish, and `zext_16` in each lane. -/
theorem publishExtendsTheFilterResult : Obligations.PublishExtendsTheFilterResult := fun s =>
  ⟨fun hcyc => ⟨_, exec_cPub hcyc, toNat_publishedField s.filt.x, toNat_publishedField s.filt.y,
    toNat_publishedField s.filt.z⟩, whenPosition_ne_next⟩

/-! ### The events of `latest()`, each exactly at its place (R212 to R216) -/

/-- Settles O37: the guard of `HOLD` is the conjunction of R212. -/
theorem holdMasksTheTimer : Obligations.HoldMasksTheTimer := fun _ =>
  ⟨fun hseq hph hcyc => whenEnabled_of_true (holdReady_iff.2 ⟨hseq, hph, hcyc⟩),
    fun hnot => whenEnabled_ne_next (mt holdReady_iff.1 hnot)⟩

/-- An event of one place in `latest()` runs there, with its effect, and at no other place (R29). -/
theorem whenRead_exactly (s : State) (q : ReadSeq) (t : State) :
    (s.rseq = q → whenEnabled (s.rseq == q) .consumerSeq t = .next t) ∧
    (s.rseq ≠ q → ∀ u, whenEnabled (s.rseq == q) .consumerSeq t ≠ .next u) :=
  ⟨fun h => whenEnabled_of_true (beq_iff_eq.2 h), fun h => whenEnabled_ne_next (mt beq_iff_eq.1 h)⟩

/-- Settles O38: the guard is the place `C_H0`, and the copy is of the field as a whole. -/
theorem readXCopiesThePublishedField : Obligations.ReadXCopiesThePublishedField :=
  fun s => whenRead_exactly s .h0 { s with rep := { s.rep with x := s.pub.x }, rseq := .h1 }

/-- Settles O39, as O38 at the place `C_H1`. -/
theorem readYCopiesThePublishedField : Obligations.ReadYCopiesThePublishedField :=
  fun s => whenRead_exactly s .h1 { s with rep := { s.rep with y := s.pub.y }, rseq := .h2 }

/-- Settles O40, as O38 at the place `C_H2`. -/
theorem readZCopiesThePublishedField : Obligations.ReadZCopiesThePublishedField :=
  fun s => whenRead_exactly s .h2 { s with rep := { s.rep with z := s.pub.z }, rseq := .h3 }

/-- `RELEASE` runs exactly in `C_H3` (R216). -/
theorem exec_release_exactly (s : State) :
    (s.rseq = .h3 → exec .release s =
      .next { s with mask := false, rseq := .idle, rdDone := true, repWritten := true }) ∧
    (s.rseq ≠ .h3 → ∀ t, exec .release s ≠ .next t) :=
  whenRead_exactly s .h3 { s with mask := false, rseq := .idle, rdDone := true, repWritten := true }

/-! ### One whole read (R72, R211, R217) -/

section Latest

variable {s : State}

/-- The state that a whole `latest()` begun in `s` leaves. -/
def afterLatest (s : State) : State :=
  { s with rep := s.pub, rseq := .idle, mask := false, repWritten := true, rdDone := true, rdReq := false }

/-- Each event leaves the place at which the next one runs, and the three reads together copy the sample. -/
theorem runOps_latestOps (hseq : s.rseq = .idle) (hph : s.ph = .run) (hcyc : s.cyc = .idle) :
    runOps latestOps s = some (afterLatest s) := by
  refine runOps_cons_of_next ((holdMasksTheTimer s).1 hseq hph hcyc) ?_
  refine runOps_cons_of_next ((readXCopiesThePublishedField _).1 rfl) ?_
  refine runOps_cons_of_next ((readYCopiesThePublishedField _).1 rfl) ?_
  refine runOps_cons_of_next ((readZCopiesThePublishedField _).1 rfl) ?_
  exact runOps_cons_of_next ((exec_release_exactly _).1 rfl) (runOps_nil _)

theorem toNat_lowByte (f : Field) : (f.extractLsb' 0 8).toNat = f.toNat % 256 := by
  simp

theorem toNat_highByte (f : Field) : (f.extractLsb' 8 8).toNat = f.toNat / 256 := by
  have hlt := f.isLt
  rw [BitVec.extractLsb'_toNat, Nat.shiftRight_eq_div_pow]
  omega

/-- The image of a report is its fields low byte first, then the button byte 0 (R72, R229). -/
theorem reportImage_toNat (r : Lanes Field) :
    (reportImage r).map BitVec.toNat =
      [r.x.toNat % 256, r.x.toNat / 256, r.y.toNat % 256, r.y.toNat / 256,
       r.z.toNat % 256, r.z.toNat / 256, 0] := by
  simp only [reportImage, List.map_cons, List.map_nil, toNat_lowByte, toNat_highByte]
  rfl

end Latest

/-- Settles O42, from the state that the five events leave. -/
theorem latestDeliversTheReport : Obligations.LatestDeliversTheReport := fun s hseq hph hcyc =>
  ⟨afterLatest s, runOps_latestOps hseq hph hcyc, readReport_eq_some.2 ⟨⟨rfl, rfl⟩, rfl⟩, rfl,
    reportImage_toNat s.pub⟩

end Sys2Proof.Proofs
end

section
/-! PROOFS. No tearing (45_sample_latch.md R219, R220, 20_memory.md R75, 70_reset_and_hazards.md R303): while a read
is under way `MASK` keeps every publish off, so that what has been copied stays equal to the published sample. -/

namespace Sys2Proof.Proofs

open Sys2Proof Sys2Proof.Machine Sys2Proof.Laws

variable {s t : State} {i : Instr} {is : List Instr}

/-! ### The published sample during a read -/

/-- While a read is under way no cycle begins, since `MASK` is up, and none is in progress (R140, R212). -/
theorem read_excludes_cycle (hmask : MaskMatchesRead s) (hcycle : CycleExcludesHold s) (hread : s.rseq ≠ .idle) :
    ¬cycleReady s = true ∧ s.cyc = .idle :=
  ⟨fun hready => hread (cycleReady_excludesHold hmask hready).2,
    Classical.byContradiction fun hcyc => hread (hcycle hcyc).2⟩

/-- The two operations that publish, `CYCLE` and `C_PUB`, do not run during a read. -/
theorem OpEffect.keeps_pub_of_read (h : OpEffect s i t) (hi : i ≠ .reset) (hmask : MaskMatchesRead s)
    (hcycle : CycleExcludesHold s) (hread : s.rseq ≠ .idle) : t.pub = s.pub := by
  obtain ⟨hnot, hidle⟩ := read_excludes_cycle hmask hcycle hread
  cases h with
  | reset => exact absurd rfl hi
  | cycle hready => exact absurd hready hnot
  | publish hcyc => exact CyclePos.noConfusion (hidle.symm.trans hcyc)
  | _ => rfl

/-- Outside a read nothing is asked of the report. -/
theorem snapshotOk_of_idle (h : s.rseq = .idle) : SnapshotOk s := by
  simp [SnapshotOk, h]

/-- Each read adds its field to those copied before, and a publish finds the consumer idle. -/
theorem OpEffect.keeps_snapshotOk (h : OpEffect s i t) (hmask : MaskMatchesRead s) (hcycle : CycleExcludesHold s)
    (hs : SnapshotOk s) : SnapshotOk t := by
  cases h with
  | reset | release => exact snapshotOk_of_idle rfl
  | hold => trivial
  | rdx => exact rfl
  | rdy hseq =>
    simp only [SnapshotOk, hseq] at hs
    exact ⟨hs, rfl⟩
  | rdz hseq =>
    simp only [SnapshotOk, hseq] at hs
    obtain ⟨hx, hy⟩ := hs
    exact ⟨hx, hy, rfl⟩
  | cycle hready => exact snapshotOk_of_idle (cycleReady_excludesHold hmask hready).2
  | publish hcyc => exact snapshotOk_of_idle (hcycle (by simp [hcyc])).2
  | _ => exact hs

/-! ### The port `rd_done` (R226, R303) -/

/-- Only `RELEASE` raises `rd_done`; `HOLD` lowers it, and the reads have their place inside a `latest()`. -/
theorem OpEffect.keeps_reportComplete (h : OpEffect s i t) (hs : ReportComplete s) : ReportComplete t := by
  cases h with
  | reset | hold => exact nofun
  | rdx hseq | rdy hseq | rdz hseq =>
    exact fun hdone => ReadSeq.noConfusion ((hs hdone).1.symm.trans hseq)
  | release => exact fun _ => ⟨rfl, rfl⟩
  | _ => exact hs

theorem reportComplete_raiseRdReq (hs : ReportComplete s) : ReportComplete (raiseRdReq s) :=
  fun hdone => hs ((Bool.and_eq_true _ _).mp hdone).1

/-- What O60 claims, with the control state it rests on. -/
def ReadInv (s : State) : Prop := ControlInv s ∧ SnapshotOk s ∧ ReportComplete s

theorem OpEffect.keeps_readInv (h : OpEffect s i t) (hs : ReadInv s) : ReadInv t := by
  obtain ⟨hctl, hsnap, hdone⟩ := hs
  have ⟨hmask, _, hcycle, _⟩ := hctl
  exact ⟨h.keeps_controlInv hctl, h.keeps_snapshotOk hmask hcycle hsnap, h.keeps_reportComplete hdone⟩

theorem readInv_raiseRdReq (hs : ReadInv s) : ReadInv (raiseRdReq s) := by
  obtain ⟨hctl, hsnap, hdone⟩ := hs
  exact ⟨hctl, hsnap, reportComplete_raiseRdReq hdone⟩

/-- Settles O60: of the control state, the mask and the position in the cycle keep the published sample still. -/
theorem stepKeepsTheSnapshot : Obligations.StepKeepsTheSnapshot := fun _ _ hctl hsnap hdone h =>
  (step_keeps (P := ReadInv) (fun _ _ hs => hs) (fun _ _ hs => hs) (fun _ => readInv_raiseRdReq)
    (fun _ _ _ => OpEffect.keeps_readInv) ⟨hctl, hsnap, hdone⟩ h).2

/-! ### From `HOLD` to `RELEASE` (R219) -/

/-- What every operation of a list keeps, the run of the list keeps. -/
theorem runOps_keeps {P : State → Prop} (hop : ∀ i ∈ is, ∀ s t, exec i s = .next t → P s → P t)
    (h : runOps is s = some t) (hs : P s) : P t := by
  induction is generalizing s with
  | nil => exact Option.some.inj h ▸ hs
  | cons i is ih =>
    obtain ⟨u, hex, hrest⟩ := runOps_cons_some.1 h
    exact ih (fun j hj => hop j (List.mem_cons_of_mem i hj)) hrest (hop i List.mem_cons_self s u hex hs)

/-- A read of the sample `p` is under way: it is the published one, and what has been copied so far is of it. -/
structure ReadsSample (p : Lanes Field) (s : State) : Prop where
  mask : MaskMatchesRead s
  cycle : CycleExcludesHold s
  reading : s.rseq ≠ .idle
  pub : s.pub = p
  snapshot : SnapshotOk s

/-- A read is ended by `RELEASE`, or abandoned by `RESET`, and by nothing else. -/
theorem OpEffect.keeps_reading (h : OpEffect s i t) (hreset : i ≠ .reset) (hrelease : i ≠ .release)
    (hread : s.rseq ≠ .idle) : t.rseq ≠ .idle := by
  cases h with
  | reset => exact absurd rfl hreset
  | release => exact absurd rfl hrelease
  | hold | rdx | rdy | rdz => exact nofun
  | _ => exact hread

/-- The guard of `HOLD` alone makes it so: no premise on the state before is needed. -/
theorem readsSample_of_hold (h : exec .hold s = .next t) : ReadsSample s.pub t := by
  obtain ⟨hready, rfl⟩ := whenEnabled_next.1 h
  obtain ⟨-, hph, hcyc⟩ := holdReady_iff.1 hready
  exact { mask := ⟨by simp, fun _ => hph⟩, cycle := fun hin => absurd hcyc hin, reading := nofun, pub := rfl,
          snapshot := trivial }

theorem OpEffect.keeps_readsSample {p : Lanes Field} (h : OpEffect s i t) (hreset : i ≠ .reset)
    (hrelease : i ≠ .release) (hs : ReadsSample p s) : ReadsSample p t where
  mask := h.keeps_maskMatchesRead hs.mask
  cycle := h.keeps_cycleExcludesHold hs.mask hs.cycle
  reading := h.keeps_reading hreset hrelease hs.reading
  pub := (h.keeps_pub_of_read hreset hs.mask hs.cycle hs.reading).trans hs.pub
  snapshot := h.keeps_snapshotOk hs.mask hs.cycle hs.snapshot

/-- `RELEASE` runs where all three fields have been copied. -/
theorem rep_of_release {p : Lanes Field} (h : exec .release s = .next t) (hs : ReadsSample p s) :
    t.rep = p ∧ t.pub = p := by
  obtain ⟨hseq, rfl⟩ := whenEnabled_next.1 h
  have hsnap := hs.snapshot
  simp only [SnapshotOk, eq_of_beq hseq] at hsnap
  exact ⟨(lanes_eq_iff.2 hsnap).trans hs.pub, hs.pub⟩

/-- Settles O44: the read begins at `HOLD` with the published sample, and the operations up to `RELEASE` keep it. -/
theorem latestNeverTears : Obligations.LatestNeverTears := by
  intro s t u is hrun hreset hrelease hex
  obtain ⟨v, hhold, hrest⟩ := runOps_cons_some.1 hrun
  have hreads : ReadsSample s.pub t := runOps_keeps (fun i hi _ _ h => (OpEffect.of_exec h).keeps_readsSample
    (ne_of_mem_of_not_mem hi hreset) (ne_of_mem_of_not_mem hi hrelease)) hrest (readsSample_of_hold hhold)
  exact rep_of_release hex hreads

end Sys2Proof.Proofs
end

section
/-! PROOFS. Every hold ends (45_sample_latch.md R216, 70_reset_and_hazards.md R294): a fair consumer takes its events
in order until `RELEASE` has run, whatever else runs in between. -/

namespace Sys2Proof.Proofs

open Sys2Proof Sys2Proof.Machine Sys2Proof.Laws

section Liveness

variable {s t : State} {i : Instr} {ms : Nat → Move} {r : Nat → State}

/-- What is not done is done some time, where no move takes it back and a move that weak fairness gives takes it on. -/
theorem eventually_of_weaklyFair {done : State → Prop} {taken : Move → Prop} (rank : State → Nat)
    (hfair : WeaklyFair (fun s => ¬done s) taken ms r)
    (hle : ∀ k, ¬done (r k) → rank (r (k + 1)) ≤ rank (r k))
    (hlt : ∀ k, ¬done (r k) → taken (ms k) → rank (r (k + 1)) < rank (r k)) (n : Nat) :
    ∃ m, n ≤ m ∧ done (r m) := by
  induction hrank : rank (r n) using Nat.strong_induction_on generalizing n with
  | _ b ih =>
    subst hrank
    by_contra hnever
    have hopen : ∀ k, n ≤ k → ¬done (r k) := fun k hk hdone => hnever ⟨k, hk, hdone⟩
    obtain ⟨k, hk, htaken⟩ := hfair n hopen
    have hsofar : rank (r k) ≤ rank (r n) :=
      antitoneOn_nat_Ici_of_succ_le (f := fun k => rank (r k)) (fun j hj => hle j (hopen j hj))
        (le_refl n) hk hk
    obtain ⟨m, hm, hdone⟩ := ih _ ((hlt k (hopen k hk) htaken).trans_le hsofar) (k + 1) rfl
    exact hnever ⟨m, by omega, hdone⟩

/-- The events that a `latest()` has still to run from a place in it (R29). -/
def eventsLeft : ReadSeq → Nat
  | .idle => 0
  | .h3 => 1
  | .h2 => 2
  | .h1 => 3
  | .h0 => 4

/-- During a read no operation takes the consumer back. -/
theorem OpEffect.eventsLeft_le (h : OpEffect s i t) (hread : s.rseq ≠ .idle) :
    eventsLeft t.rseq ≤ eventsLeft s.rseq := by
  cases h with
  | reset | release => exact Nat.zero_le _
  | hold _ hseq => exact absurd hseq hread
  | rdx hseq | rdy hseq | rdz hseq => simp [eventsLeft, hseq]
  | _ => exact Nat.le_refl _

/-- During a read an event of `latest()` takes the consumer on: the only one that would not is `HOLD`, and it does
not run there. -/
theorem eventsLeft_lt_of_latestOps (hi : i ∈ latestOps) (h : exec i s = .next t) (hread : s.rseq ≠ .idle) :
    eventsLeft t.rseq < eventsLeft s.rseq := by
  rcases mem_latestOps.1 hi with rfl | rfl | rfl | rfl | rfl
  · obtain ⟨hready, -⟩ := whenEnabled_next.1 h
    exact absurd (holdReady_iff.1 hready).1 hread
  all_goals
    obtain ⟨hseq, rfl⟩ := whenEnabled_next.1 h
    simp [eventsLeft, eq_of_beq hseq]

theorem isRun_eventually_idle (hr : IsRun ms r) (hfair : ConsumerFair ms r) (n : Nat) :
    ∃ m, n ≤ m ∧ (r m).rseq = .idle := by
  refine eventually_of_weaklyFair (fun s => eventsLeft s.rseq) hfair (fun k hread => ?_)
    (fun k hread ⟨i, hi, hmove⟩ => ?_) n
  · exact isRun_next_of hr (P := fun u => eventsLeft u.rseq ≤ eventsLeft (r k).rseq) (Nat.le_refl _)
      fun _ _ _ hex => (OpEffect.of_exec hex).eventsLeft_le hread
  · have hex := hr k
    rw [hmove] at hex
    exact eventsLeft_lt_of_latestOps hi hex hread

end Liveness

/-- Settles O41: the place of `RELEASE`, and the fair consumer, whose `MASK` is down where it is idle. -/
theorem releaseUnmasksTheTimer : Obligations.ReleaseUnmasksTheTimer := by
  refine ⟨exec_release_exactly, fun ms r n hr hfair h0 => ?_⟩
  obtain ⟨m, hm, hidle⟩ := isRun_eventually_idle hr hfair n
  exact ⟨m, hm, hidle, mask_of_idle (isRun_controlInv hr h0 m) hidle⟩

end Sys2Proof.Proofs
end

section
/-! PROOFS. The timer tick (60_exceptions.md R245, 10_state.md R31): its one pending bit, which counts no second
tick. -/

namespace Sys2Proof.Proofs

open Sys2Proof Sys2Proof.Machine Sys2Proof.Laws

variable {s : State}

/-- `TICK` runs while the timer does, and sets the pending bit (R245). -/
theorem exec_tick_of_running (hen : s.acqEn = true) : exec .tick s = .next { s with tickPend := true } :=
  whenEnabled_of_true hen

/-- To set the pending bit where it is set changes nothing: R31 has one bit, not a count. -/
theorem setTickPend_of_pending (hpend : s.tickPend = true) : { s with tickPend := true } = s := by
  rw [← hpend]

/-- Without the timer there is no tick (R245). -/
theorem exec_tick_ne_next (hstopped : s.acqEn = false) (t : State) : exec .tick s ≠ .next t :=
  whenEnabled_ne_next (Bool.eq_false_iff.1 hstopped) t

/-- Settles O46: the guard of `TICK` is `ACQ_EN`, and its update leaves a state with a pending tick as it is. -/
theorem tickSetsThePendingBit : Obligations.TickSetsThePendingBit := by
  refine fun s => ⟨exec_tick_of_running, fun hen hpend => ?_, exec_tick_ne_next⟩
  calc exec .tick s
    _ = .next { s with tickPend := true } := exec_tick_of_running hen
    _ = .next s := by rw [setTickPend_of_pending hpend]

end Sys2Proof.Proofs
end

section
/-! PROOFS. Reset (70_reset_and_hazards.md R280 to R282), and the run that has no end (R302): a reset and a free move
always answer a next state. -/

namespace Sys2Proof.Proofs

open Sys2Proof Sys2Proof.Machine Sys2Proof.Laws

variable {s : State} {m : Move}

/-! ### Reset -/

/-- `RESET` has no guard (R280). -/
theorem exec_reset (s : State) : exec .reset s = .next (resetState s) := rfl

/-- A reset empties the slot files, and an unlisted slot reads 0 (R43). -/
theorem readSlot_resetState (s : State) (j : Nat) : readSlot (resetState s).buf j = lanesOf 0 := readSlot_reset j

/-- Settles O47: the slots read 0, and each other field is what `resetState` gives it. -/
theorem resetRestoresEveryRegister : Obligations.ResetRestoresEveryRegister := by
  refine fun s => ⟨resetState s, exec_reset s, readSlot_resetState s, ?_⟩
  simp only [resetState_cur, resetState_lat, resetState_pub, resetState_genuine, resetState_acqEn,
    resetState_tickPend, resetState_mask, resetState_indMode, resetState_ph, resetState_rseq, resetState_cyc,
    resetState_busLog, resetState_repWritten, resetState_rdDone, resetState_cfg, resetState_iirHist,
    resetState_iirOut, resetState_sched, resetState_freeCtr, resetState_rdReq, and_self]

/-! ### The free step -/

/-- The open moves are the user's request and the environment's events that are enabled. -/
theorem mem_freeMoves :
    m ∈ freeMoves s ↔ m = .raiseRdReq ∨ ∃ i ∈ freeEvents s, (∃ t, exec i s = .next t) ∧ m = .op i := by
  simp only [freeMoves, List.mem_cons, List.mem_map, List.mem_filter, runsHere_iff, and_assoc, eq_comm (a := m)]

/-- An open move takes place: the request always (R228), an event because only enabled ones are open. -/
theorem runMove_next_of_mem_freeMoves (hm : m ∈ freeMoves s) : ∃ t, runMove m s = .next t := by
  obtain rfl | ⟨i, -, hruns, rfl⟩ := mem_freeMoves.1 hm
  · exact ⟨raiseRdReq s, rfl⟩
  · exact hruns

/-- Whatever the free choice is, it falls on an open move: there is one, and the choice is taken modulo their number. -/
theorem chosenMove_mem_freeMoves (s : State) : chosenMove s ∈ freeMoves s := by
  have hopen : 0 < (freeMoves s).length := List.length_pos_of_mem (mem_freeMoves.2 (.inl rfl))
  have hindex := Nat.mod_lt (Config.freeChoice s.freeCtr) hopen
  rw [chosenMove, List.getElem?_eq_getElem hindex]
  exact List.getElem_mem hindex

theorem freeStep_next (s : State) : ∃ t, freeStep s = .next t :=
  runMove_next_of_mem_freeMoves (chosenMove_mem_freeMoves (countChoice s))

/-- Settles O7: with nothing scheduled the step is the free step, whose move is an open one. -/
theorem freeStepAlwaysAnswersNext : Obligations.FreeStepAlwaysAnswersNext := by
  intro s hempty
  rw [step_free hempty]
  exact freeStep_next s

end Sys2Proof.Proofs
end
